-- ==== Sys2Proof/Word.lean ====
section
/-! DEFINITION. The words of FCT, the frame-codec transport core: bytes, the 16-bit identifier, the four
header bytes and the four header fields (spec/30_encoding.md R80). -/

namespace Sys2Proof

/-- One byte of the wire or of a buffer, bits 7 down to 0 (R8). -/
abbrev Byte := BitVec 8

/-- The 16-bit command identifier (R82). -/
abbrev Half := BitVec 16

/-- The four header bytes in wire order (R61, R80). -/
structure Header where
  typ  : Byte
  idLo : Byte
  idHi : Byte
  size : Byte
  deriving DecidableEq, Repr, Inhabited

/-- The four fields the codec packs and unpacks (R110, R111). -/
structure HeaderFields where
  typ  : Byte
  id   : Half
  len  : Nat
  cont : Bool
  deriving DecidableEq, Repr, Inhabited

/-- The classes a byte in the type position falls into on receive (R81, R210). -/
inductive TypeClass where
  /-- 0x20: the rest of the frame is read. -/
  | response
  /-- 0xFE or 0xFF: transient, select is toggled. -/
  | sentinel
  /-- Every other value: fatal. -/
  | unexpected
  deriving DecidableEq, Repr

end Sys2Proof
end

