-- ==== Sys2Proof/Config.lean ====
section
/-! DEFINITION. What is fixed for a machine before reset (spec/00_scope.md R6, R7): the literals of the wire
contract, each in one named place (spec/93_implementation_defined.md U4), the open parameters as one record,
and the free values of the environment, which have no body. -/

namespace Sys2Proof

/-- The five delays of R7, each with a length of its own (D32). -/
inductive Delay where
  /-- `T_RETRY`, after a not-ready echo on a write. -/
  | retry
  /-- `T_INTERFRAME`, between two outbound frames. -/
  | interframe
  /-- `T_SETTLE`, after the last outbound frame. -/
  | settle
  /-- `T_RXTOG_SHORT`, select released, in the receive toggle. -/
  | rxtogShort
  /-- `T_RXTOG_MAND`, select reasserted, in the receive toggle. -/
  | rxtogMand
  deriving DecidableEq, Repr, Inhabited

/-- The three byte buffers of R60. -/
inductive Buffer where
  | txbuf
  | rxbuf
  | fPay
  deriving DecidableEq, Repr, Inhabited

/-- The two readings of the no-payload frame (D23, U15). -/
inductive ZeroLenForm where
  /-- Four bytes, `10 lo hi FF` (the reading rule R86 takes). -/
  | fillerReplacesSize
  /-- Five bytes, `10 lo hi 00 FF` (the alternative set aside by C2). -/
  | sizeThenFiller
  deriving DecidableEq, Repr, Inhabited

/-- The open parameters of R7. They are a constant of the configuration (R36): State carries them so that one
model covers every configuration, and no step writes them. -/
structure Params where
  /-- `TX_CAP`, at least 1. -/
  txCap       : Nat
  /-- `RX_CAP`, at least 1. -/
  rxCap       : Nat
  /-- `READ_TIMEOUT`, in ticks. -/
  readTimeout : Nat
  /-- `T_RETRY`, in ticks. -/
  tRetry      : Nat
  /-- `T_INTERFRAME`, in ticks. -/
  tInterframe : Nat
  /-- `T_SETTLE`, in ticks. -/
  tSettle     : Nat
  /-- `T_RXTOG_SHORT`, in ticks. -/
  tRxtogShort : Nat
  /-- `T_RXTOG_MAND`, in ticks. -/
  tRxtogMand  : Nat
  deriving DecidableEq, Repr, Inhabited

/-- What the host presents on its port in one step: the 2-bit `OP` of R92 with that operation's operands. -/
inductive HostReq where
  /-- `OP = 00`. -/
  | none
  /-- `OP = 01`, operands of R110; `length` is the 8-bit port of D24. -/
  | encodeHeader (typ : Byte) (id : Half) (length : Byte) (cont : Bool)
  /-- `OP = 10`, operands of R111. -/
  | decodeHeader (h : Header)
  /-- `OP = 11`, operands of R150. -/
  | execute (commandId : Half) (payload : List Byte)
  deriving DecidableEq, Repr, Inhabited

/-- What the environment supplies anew for each step (R10, R270): the host port, the reset input and by how
much the monotone clock has advanced (R135). -/
structure StepInput where
  req     : HostReq
  reset   : Bool
  advance : Nat
  deriving DecidableEq, Repr, Inhabited

namespace Config

/-- `HEADER_LEN` (R6). -/
def headerLen : Nat := 4
/-- `MAX_PAYLOAD` (R6). -/
def maxPayload : Nat := 16
/-- `MAX_PACKET`, 20 (R6): a header and the longest payload. -/
def maxPacket : Nat := headerLen + maxPayload
/-- `LEN_MASK` (R6). -/
def lenMask : Byte := 0x1F
/-- `CONT_BIT` (R6). -/
def contBit : Nat := 7
/-- The size byte's continuation flag alone: 0x80, made from `CONT_BIT` (R85). -/
def contMask : Byte := 1 <<< contBit
/-- The lower of the size byte's two unused bits 6..5 (R84). -/
def unusedBit : Nat := 5
/-- `FILLER` (R6). -/
def filler : Byte := 0xFF
/-- `T_COMMAND` (R6). -/
def tCommand : Byte := 0x10
/-- `T_RESPONSE` (R6). -/
def tResponse : Byte := 0x20
/-- `T_ALERT` (R6). -/
def tAlert : Byte := 0x40
/-- `T_ERROR` (R6). -/
def tError : Byte := 0x80
/-- `S_NOT_READY`, the sentinel DeviceNotReady (R6, D6). -/
def sNotReady : Byte := 0xFE
/-- `S_OVERFLOW`, the sentinel ReadOverflow (R6, D6). -/
def sOverflow : Byte := 0xFF
/-- `ID_INIT` (R6, R89). -/
def idInit : Half := 0xBEEF
/-- `ID_ATWRAP` (R6, R89). -/
def idAtWrap : Half := 0x0A00
/-- `WRITE_ATTEMPT_MAX`, the reference value (R6, D12). -/
def writeAttemptMax : Nat := 25
/-- The one switch of D23: which reading of the no-payload frame the block follows. Rule R86 and conflict C2
take the four-byte form. -/
def zeroLenForm : ZeroLenForm := .fillerReplacesSize

/-- DESIGN CHOICE (log 3): `TX_CAP` less 1, open (D10), so that every configuration has `TX_CAP ≥ 1`. -/
opaque txCapLessOne : Nat
/-- DESIGN CHOICE (log 3): `RX_CAP` less 1, open (D11). -/
opaque rxCapLessOne : Nat
/-- DESIGN CHOICE (log 3): `READ_TIMEOUT`, open (D12). -/
opaque readTimeout : Nat
/-- DESIGN CHOICE (log 3): the five delays, open (D12, D32). -/
opaque delayTicks : Delay → Nat

/-- The configuration the machine has at reset: every open parameter of R7 a constant without a body. -/
def params : Params where
  txCap       := txCapLessOne + 1
  rxCap       := rxCapLessOne + 1
  readTimeout := readTimeout
  tRetry      := delayTicks .retry
  tInterframe := delayTicks .interframe
  tSettle     := delayTicks .settle
  tRxtogShort := delayTicks .rxtogShort
  tRxtogMand  := delayTicks .rxtogMand

/-- Free value (R139, log 1): the byte the peer answers at a draw. -/
opaque peerByte : Nat → Byte
/-- Free value (R139, log 1): the level of the ready line at a draw. -/
opaque readyLevel : Nat → Bool
/-- Free value (R10, R135, R270, log 1): the host port, the reset input and the clock's advance at a draw. -/
opaque stepInput : Nat → StepInput
/-- Free value (R39, R270, U9, log 5): a buffer's byte after the reset input has been seen at a draw. -/
opaque resetByte : Buffer → Nat → Nat → Byte

end Config

end Sys2Proof
end

