-- ==== Sys2Proof/Machine/Operands.lean ====
section
/-! DEFINITION. The fields assembled from operands and taken apart again, as pure functions: the size byte, the
id bytes, the whole header, the class of a type byte, and the ticks a delay lasts (spec/30_encoding.md R81, R85;
spec/40_frame_codec.md R110, R111). -/

namespace Sys2Proof.Machine

/-- `pack_size(len, cont)` (R85): bits 6..5 are 0 for `len ≤ 16` (R84, R116). -/
def packSize (len : Nat) (cont : Bool) : Byte :=
  (if cont then Config.contMask else 0x00) ||| BitVec.ofNat 8 len

/-- `unpack_len(size)` (R85): 0 to 31. -/
def unpackLen (size : Byte) : Nat :=
  (size &&& Config.lenMask).toNat

/-- `unpack_cont(size)` (R85). -/
def unpackCont (size : Byte) : Bool :=
  size >>> Config.contBit != 0

/-- `clamp_len(n)` (R85), used on receive only. -/
def clampLen (n : Nat) : Nat :=
  min n Config.maxPayload

/-- `id_lo(id)` (R85). -/
def idLo (id : Half) : Byte :=
  id.extractLsb' 0 8

/-- `id_hi(id)` (R85). -/
def idHi (id : Half) : Byte :=
  id.extractLsb' 8 8

/-- `join_id(lo, hi)` (R85): the high byte in the more significant place. -/
def joinId (lo hi : Byte) : Half :=
  hi ++ lo

/-- The size byte with its three parts given bit by bit (R80): the packed byte with the unused bits as they are. -/
def sizeBits (cont : Bool) (unused : BitVec 2) (len : BitVec 5) : Byte :=
  packSize len.toNat cont ||| unused.setWidth 8 <<< Config.unusedBit

/-- `size[4:0]`, the declared length as the field it is (R83). -/
def sizeLen (size : Byte) : BitVec 5 :=
  BitVec.ofNat 5 (unpackLen size)

/-- `size[6:5]`, the unused bits (R84). -/
def sizeUnused (size : Byte) : BitVec 2 :=
  size.extractLsb' Config.unusedBit 2

/-- `ENCODE_HEADER` (R110): none is the failure `PacketTooLarge`, with no byte produced. -/
def encodeHeaderFields (f : HeaderFields) : Option Header :=
  if f.len > Config.maxPayload then none
  else some { typ := f.typ, idLo := idLo f.id, idHi := idHi f.id, size := packSize f.len f.cont }

/-- `DECODE_HEADER` (R111): every four bytes decode, the length is not clamped. -/
def decodeHeaderBytes (h : Header) : HeaderFields :=
  { typ := h.typ, id := joinId h.idLo h.idHi, len := unpackLen h.size, cont := unpackCont h.size }

/-- The class of a byte read in the type position (R81, R210): the match is on the whole byte. -/
def typeClass (t : Byte) : TypeClass :=
  if t = Config.tResponse then .response
  else if t = Config.sNotReady ∨ t = Config.sOverflow then .sentinel
  else .unexpected

/-- The chunk length at an offset of a message (R152). -/
def chunkLenAt (len off : Nat) : Nat :=
  min Config.maxPayload (len - off)

/-- Whether more frames follow the chunk at an offset (R152). -/
def moreAt (len off : Nat) : Bool :=
  decide (off + chunkLenAt len off < len)

/-- `nframes(L)` (R152). -/
def nframes (len : Nat) : Nat :=
  max 1 ((len + (Config.maxPayload - 1)) / Config.maxPayload)

/-- The ticks a delay lasts in a configuration (R7). -/
def delayTicks (p : Params) : Delay → Nat
  | .retry      => p.tRetry
  | .interframe => p.tInterframe
  | .settle     => p.tSettle
  | .rxtogShort => p.tRxtogShort
  | .rxtogMand  => p.tRxtogMand

end Sys2Proof.Machine
end

