-- ==== Sys2Proof/Syntax.lean ====
section
/-! DEFINITION. The instructions: one constructor per row of spec/opcode_table.json (R92, R93). A row is a wire
form, a wire field's value, a host operation, a link operation, a clock operation, the pseudo-operation
`READ_BYTES`, or a state of the FSM, whose register `st` plays the program counter (R21). -/

namespace Sys2Proof

/-- One constructor per row of the opcode table, its operands the row's fields. -/
inductive Instr where
  -- wire forms (R86, R88)
  /-- `FRAME_OUT_PAYLOAD`; the length field is the payload's length. -/
  | frameOutPayload (id : Half) (more : Bool) (payload : List Byte)
  /-- `FRAME_OUT_EMPTY`. -/
  | frameOutEmpty (id : Half)
  /-- `FRAME_IN_RESPONSE`; `len` is the declared length, `payload` the bytes read after the clamp. -/
  | frameInResponse (id : Half) (cont : Bool) (unused : BitVec 2) (len : BitVec 5) (payload : List Byte)
  -- values of the type byte (R81)
  /-- `TYPE_COMMAND`, 0x10. -/
  | typeCommand
  /-- `TYPE_RESPONSE`, 0x20. -/
  | typeResponse
  /-- `TYPE_ALERT`, 0x40. -/
  | typeAlert
  /-- `TYPE_ERROR`, 0x80. -/
  | typeError
  /-- `TYPE_DEVICE_NOT_READY`, 0xFE. -/
  | typeDeviceNotReady
  /-- `TYPE_READ_OVERFLOW`, 0xFF. -/
  | typeReadOverflow
  /-- `TYPE_OTHER`, any value the six rows above do not name. -/
  | typeOther (t : Byte)
  -- the size byte (R83) and the reserved identifiers (R89)
  /-- `SIZE_BYTE`: bit 7, bits 6..5, bits 4..0. -/
  | sizeByte (cont : Bool) (unused : BitVec 2) (len : BitVec 5)
  /-- `ID_INIT`, 0xBEEF. -/
  | idInit
  /-- `ID_AT_WRAPPER`, 0x0A00. -/
  | idAtWrapper
  -- host operations (R110, R111, R150)
  /-- `ENCODE_HEADER`. -/
  | encodeHeader (typ : Byte) (id : Half) (length : Byte) (cont : Bool)
  /-- `DECODE_HEADER`. -/
  | decodeHeader (h : Header)
  /-- `EXECUTE`. -/
  | execute (commandId : Half) (payload : List Byte)
  -- link operations (R130, R131, R132, R134)
  /-- `ASSERT_SELECT`. -/
  | assertSelect
  /-- `RELEASE`. -/
  | release
  /-- `TRANSFER_BYTE`. -/
  | transferByte (out : Byte)
  /-- `READY_ASSERTED`. -/
  | readyAsserted
  -- clock operations (R135, R136) and the pseudo-operation (R133)
  /-- `NOW`. -/
  | now
  /-- `SLEEP`. -/
  | sleep (d : Delay)
  /-- `READ_BYTES`. -/
  | readBytes (n : Nat)
  -- states of the FSM (R21)
  | stIdle
  | stTxAssert
  | stTxType
  | stTxNrRelease
  | stTxNrDelay
  | stTxIdlo
  | stTxIdhi
  | stTxSize
  | stTxPayload
  | stTxFill
  | stTxRelease
  | stTxIfDelay
  | stRxSettle
  | stRxAssert
  | stRxPoll
  | stRxType
  | stRxTogRelease
  | stRxTogDelay1
  | stRxTogAssert
  | stRxTogDelay2
  | stRxIdlo
  | stRxIdhi
  | stRxSize
  | stRxPayload
  | stRxAppend
  | stRxDoneRelease
  | stFailRelease
  | stDone
  deriving DecidableEq, Repr

end Sys2Proof
end

