-- ==== Sys2Proof/WellFormed.lean ====
section
/-! DEFINITION. Which terms of Instr are instructions: the operands a row of the opcode table admits. -/

namespace Sys2Proof

/-- The type byte values that have a row of their own (R81). -/
def namedTypes : List Byte :=
  [Config.tCommand, Config.tResponse, Config.tAlert, Config.tError, Config.sNotReady, Config.sOverflow]

/-- The checks: an outbound frame with payload carries 1 to 16 bytes (R86); an inbound frame carries exactly
the clamped declared length (R88); `TYPE_OTHER` is a value without a row of its own (R81). Every other operand
ranges over its whole type. -/
def Instr.wellFormed : Instr → Bool
  | .frameOutPayload _ _ payload => decide (1 ≤ payload.length) && decide (payload.length ≤ Config.maxPayload)
  | .frameInResponse _ _ _ len payload => payload.length == min len.toNat Config.maxPayload
  | .typeOther t => !(namedTypes.contains t)
  | .frameOutEmpty _ | .typeCommand | .typeResponse | .typeAlert | .typeError | .typeDeviceNotReady
  | .typeReadOverflow | .sizeByte _ _ _ | .idInit | .idAtWrapper | .encodeHeader _ _ _ _ | .decodeHeader _
  | .execute _ _ | .assertSelect | .release | .transferByte _ | .readyAsserted | .now | .sleep _ | .readBytes _
  | .stIdle | .stTxAssert | .stTxType | .stTxNrRelease | .stTxNrDelay | .stTxIdlo | .stTxIdhi | .stTxSize
  | .stTxPayload | .stTxFill | .stTxRelease | .stTxIfDelay | .stRxSettle | .stRxAssert | .stRxPoll | .stRxType
  | .stRxTogRelease | .stRxTogDelay1 | .stRxTogAssert | .stRxTogDelay2 | .stRxIdlo | .stRxIdhi | .stRxSize
  | .stRxPayload | .stRxAppend | .stRxDoneRelease | .stFailRelease | .stDone => true

end Sys2Proof
end

