-- ==== Sys2Proof/Decode.lean ====
section
/-! DEFINITION. Decoding and encoding. FCT has no one instruction word: each interface decodes its own codes
(R92, R93), so a code is a list of bytes TOGETHER WITH THE PORT it stands on. The bytes of a code narrower than
a byte are its number in the low bits; the layout of operand bytes behind a host operation's code, and the codes of
the two clock operations, to which the spec gives none, are the model's (log 7). -/

namespace Sys2Proof

/-- The interfaces a code can stand on (R92, R93, R140). -/
inductive Port where
  /-- A whole frame in wire order (R80). -/
  | frame
  /-- One byte in a type position (R81). -/
  | typeByte
  /-- One byte in the size position (R83). -/
  | sizeByte
  /-- The two id bytes, low byte first (R82). -/
  | id
  /-- The host port: `OP` and its operands (R92). -/
  | host
  /-- The link port: `LOP` and its operand (R92). -/
  | link
  /-- The clock port (R135, R136). -/
  | clock
  /-- Repetitions of one link code that stand for a pseudo-operation (R94). -/
  | pseudo
  /-- The state register (R21). -/
  | fsm
  deriving DecidableEq, Repr

/-- A code: the port it stands on and its bytes, the first byte first. -/
structure Code where
  port  : Port
  bytes : List Byte
  deriving DecidableEq, Repr

/-- Why bytes on a port are no instruction. -/
inductive DecodeError where
  /-- Fewer or more bytes than the port's code takes. -/
  | wrongLength
  /-- A frame that starts with neither 0x10 nor 0x20 (R86, R88). -/
  | notAFrame
  /-- An outbound frame whose size byte is none that FCT sends (R86). -/
  | illegalOutboundFrame
  /-- An id that the table does not list (R89). -/
  | idNotReserved
  /-- Operation code 0: no operation is requested (R92). -/
  | noOperation
  /-- An unused operation code (R90). -/
  | unusedOperation
  /-- An operand byte outside its range. -/
  | illegalOperand
  /-- State codes 28 and above (R21, R90). -/
  | unusedStateCode
  deriving DecidableEq, Repr

/-- The rows of the FSM in the order of their codes 0 to 27 (R21). -/
def fsmRows : List Instr :=
  [.stIdle, .stTxAssert, .stTxType, .stTxNrRelease, .stTxNrDelay, .stTxIdlo, .stTxIdhi, .stTxSize]
  ++ [.stTxPayload, .stTxFill, .stTxRelease, .stTxIfDelay, .stRxSettle, .stRxAssert, .stRxPoll, .stRxType]
  ++ [.stRxTogRelease, .stRxTogDelay1, .stRxTogAssert, .stRxTogDelay2, .stRxIdlo, .stRxIdhi, .stRxSize]
  ++ [.stRxPayload, .stRxAppend, .stRxDoneRelease, .stFailRelease, .stDone]

/-- The row of a byte in a type position (R81): the six named values, else the default row. -/
def decodeType (t : Byte) : Instr :=
  if t = Config.tCommand then .typeCommand
  else if t = Config.tResponse then .typeResponse
  else if t = Config.tAlert then .typeAlert
  else if t = Config.tError then .typeError
  else if t = Config.sNotReady then .typeDeviceNotReady
  else if t = Config.sOverflow then .typeReadOverflow
  else .typeOther t

/-- The size byte's row (R83): the continuation flag, the unused bits, the length bits. -/
def decodeSize (b : Byte) : Instr :=
  .sizeByte (Machine.unpackCont b) (Machine.sizeUnused b) (Machine.sizeLen b)

/-- A whole frame (R80, R86, R88). The four-byte form `10 lo hi FF` is the no-payload frame. -/
def decodeFrame : List Byte → Except DecodeError Instr
  | t :: lo :: hi :: size :: payload =>
    if t = Config.tCommand then
      if size = Config.filler then
        if payload = [] then .ok (.frameOutEmpty (Machine.joinId lo hi)) else .error .wrongLength
      else if Machine.sizeUnused size = 0 ∧ 1 ≤ Machine.unpackLen size ∧ Machine.unpackLen size ≤ Config.maxPayload then
        if payload.length = Machine.unpackLen size then
          .ok (.frameOutPayload (Machine.joinId lo hi) (Machine.unpackCont size) payload)
        else .error .wrongLength
      else .error .illegalOutboundFrame
    else if t = Config.tResponse then
      if payload.length = Machine.clampLen (Machine.unpackLen size) then
        .ok (.frameInResponse (Machine.joinId lo hi) (Machine.unpackCont size) (Machine.sizeUnused size)
          (Machine.sizeLen size) payload)
      else .error .wrongLength
    else .error .notAFrame
  | _ => .error .wrongLength

/-- The two reserved ids, low byte first (R89). -/
def decodeId : List Byte → Except DecodeError Instr
  | [lo, hi] =>
    if Machine.joinId lo hi = Config.idInit then .ok .idInit
    else if Machine.joinId lo hi = Config.idAtWrap then .ok .idAtWrapper
    else .error .idNotReserved
  | _ => .error .wrongLength

/-- One operand bit carried in a byte: 0 or 1. -/
def decodeFlag (b : Byte) : Except DecodeError Bool :=
  if b = 0 then .ok false else if b = 1 then .ok true else .error .illegalOperand

/-- Host operations: `OP` 01, 10, 11 (R92), then the operands, multi-byte fields low byte first. -/
def decodeHost : List Byte → Except DecodeError Instr
  | [] => .error .wrongLength
  | op :: rest =>
    if op = 0 then .error .noOperation
    else if op = 1 then
      match rest with
      | [t, lo, hi, len, c] => (decodeFlag c).map (fun cont => .encodeHeader t (Machine.joinId lo hi) len cont)
      | _ => .error .wrongLength
    else if op = 2 then
      match rest with
      | [t, lo, hi, size] => .ok (.decodeHeader { typ := t, idLo := lo, idHi := hi, size := size })
      | _ => .error .wrongLength
    else if op = 3 then
      match rest with
      | lo :: hi :: payload => .ok (.execute (Machine.joinId lo hi) payload)
      | _ => .error .wrongLength
    else .error .unusedOperation

/-- Link operations: `LOP` 001, 010, 011 with an out byte, 100 (R92). -/
def decodeLink : List Byte → Except DecodeError Instr
  | [] => .error .wrongLength
  | op :: rest =>
    if op = 0 then .error .noOperation
    else if op = 1 then if rest = [] then .ok .assertSelect else .error .wrongLength
    else if op = 2 then if rest = [] then .ok .release else .error .wrongLength
    else if op = 3 then
      match rest with
      | [out] => .ok (.transferByte out)
      | _ => .error .wrongLength
    else if op = 4 then if rest = [] then .ok .readyAsserted else .error .wrongLength
    else .error .unusedOperation

/-- Clock operations: no byte is `NOW`; one byte names the delay of a `SLEEP` in the order of R7 (log 7). -/
def decodeClock : List Byte → Except DecodeError Instr
  | [] => .ok .now
  | [d] =>
    if d = 0 then .ok (.sleep .retry)
    else if d = 1 then .ok (.sleep .interframe)
    else if d = 2 then .ok (.sleep .settle)
    else if d = 3 then .ok (.sleep .rxtogShort)
    else if d = 4 then .ok (.sleep .rxtogMand)
    else .error .illegalOperand
  | _ => .error .wrongLength

/-- How many times the code of `TRANSFER_BYTE(0xFF)` stands in the bytes, when nothing else does (R94). -/
def countReads : List Byte → Option Nat
  | [] => some 0
  | op :: out :: rest => if op = 3 ∧ out = Config.filler then (countReads rest).map (· + 1) else none
  | [_] => none

/-- `READ_BYTES(n)` is `n` times `TRANSFER_BYTE(0xFF)` (R94, R133). -/
def decodePseudo (bytes : List Byte) : Except DecodeError Instr :=
  match countReads bytes with
  | some n => .ok (.readBytes n)
  | none => .error .illegalOperand

/-- The rule that fires at a step, chosen by the code of `st` alone (R21). -/
def decodeState : List Byte → Except DecodeError Instr
  | [c] =>
    match fsmRows[c.toNat]? with
    | some i => .ok i
    | none => .error .unusedStateCode
  | _ => .error .wrongLength

/-- The instruction a code stands for, or the reason it stands for none. Total on any bytes on any port. -/
def decode (c : Code) : Except DecodeError Instr :=
  match c.port with
  | .frame    => decodeFrame c.bytes
  | .typeByte => match c.bytes with
                 | [t] => .ok (decodeType t)
                 | _ => .error .wrongLength
  | .sizeByte => match c.bytes with
                 | [b] => .ok (decodeSize b)
                 | _ => .error .wrongLength
  | .id       => decodeId c.bytes
  | .host     => decodeHost c.bytes
  | .link     => decodeLink c.bytes
  | .clock    => decodeClock c.bytes
  | .pseudo   => decodePseudo c.bytes
  | .fsm      => decodeState c.bytes

/-- The byte that names a delay on the clock port (log 7). -/
def delayCode : Delay → Byte
  | .retry      => 0
  | .interframe => 1
  | .settle     => 2
  | .rxtogShort => 3
  | .rxtogMand  => 4

/-- `n` repetitions of the code of `TRANSFER_BYTE(0xFF)` (R94). -/
def readCodes : Nat → List Byte
  | 0 => []
  | n + 1 => 3 :: Config.filler :: readCodes n

/-- A bit carried in a byte. -/
def flagByte (b : Bool) : Byte :=
  if b then 1 else 0

/-- The code of an instruction, from the same tables of the spec. -/
def encode : Instr → Code
  | .frameOutPayload id more payload =>
    ⟨.frame, Config.tCommand :: Machine.idLo id :: Machine.idHi id :: Machine.packSize payload.length more :: payload⟩
  | .frameOutEmpty id => ⟨.frame, [Config.tCommand, Machine.idLo id, Machine.idHi id, Config.filler]⟩
  | .frameInResponse id cont unused len payload =>
    ⟨.frame, Config.tResponse :: Machine.idLo id :: Machine.idHi id :: Machine.sizeBits cont unused len :: payload⟩
  | .typeCommand        => ⟨.typeByte, [Config.tCommand]⟩
  | .typeResponse       => ⟨.typeByte, [Config.tResponse]⟩
  | .typeAlert          => ⟨.typeByte, [Config.tAlert]⟩
  | .typeError          => ⟨.typeByte, [Config.tError]⟩
  | .typeDeviceNotReady => ⟨.typeByte, [Config.sNotReady]⟩
  | .typeReadOverflow   => ⟨.typeByte, [Config.sOverflow]⟩
  | .typeOther t        => ⟨.typeByte, [t]⟩
  | .sizeByte cont unused len => ⟨.sizeByte, [Machine.sizeBits cont unused len]⟩
  | .idInit      => ⟨.id, [Machine.idLo Config.idInit, Machine.idHi Config.idInit]⟩
  | .idAtWrapper => ⟨.id, [Machine.idLo Config.idAtWrap, Machine.idHi Config.idAtWrap]⟩
  | .encodeHeader typ id length cont =>
    ⟨.host, [1, typ, Machine.idLo id, Machine.idHi id, length, flagByte cont]⟩
  | .decodeHeader h => ⟨.host, [2, h.typ, h.idLo, h.idHi, h.size]⟩
  | .execute commandId payload => ⟨.host, 3 :: Machine.idLo commandId :: Machine.idHi commandId :: payload⟩
  | .assertSelect     => ⟨.link, [1]⟩
  | .release          => ⟨.link, [2]⟩
  | .transferByte out => ⟨.link, [3, out]⟩
  | .readyAsserted    => ⟨.link, [4]⟩
  | .now         => ⟨.clock, []⟩
  | .sleep d     => ⟨.clock, [delayCode d]⟩
  | .readBytes n => ⟨.pseudo, readCodes n⟩
  | .stIdle          => ⟨.fsm, [0]⟩
  | .stTxAssert      => ⟨.fsm, [1]⟩
  | .stTxType        => ⟨.fsm, [2]⟩
  | .stTxNrRelease   => ⟨.fsm, [3]⟩
  | .stTxNrDelay     => ⟨.fsm, [4]⟩
  | .stTxIdlo        => ⟨.fsm, [5]⟩
  | .stTxIdhi        => ⟨.fsm, [6]⟩
  | .stTxSize        => ⟨.fsm, [7]⟩
  | .stTxPayload     => ⟨.fsm, [8]⟩
  | .stTxFill        => ⟨.fsm, [9]⟩
  | .stTxRelease     => ⟨.fsm, [10]⟩
  | .stTxIfDelay     => ⟨.fsm, [11]⟩
  | .stRxSettle      => ⟨.fsm, [12]⟩
  | .stRxAssert      => ⟨.fsm, [13]⟩
  | .stRxPoll        => ⟨.fsm, [14]⟩
  | .stRxType        => ⟨.fsm, [15]⟩
  | .stRxTogRelease  => ⟨.fsm, [16]⟩
  | .stRxTogDelay1   => ⟨.fsm, [17]⟩
  | .stRxTogAssert   => ⟨.fsm, [18]⟩
  | .stRxTogDelay2   => ⟨.fsm, [19]⟩
  | .stRxIdlo        => ⟨.fsm, [20]⟩
  | .stRxIdhi        => ⟨.fsm, [21]⟩
  | .stRxSize        => ⟨.fsm, [22]⟩
  | .stRxPayload     => ⟨.fsm, [23]⟩
  | .stRxAppend      => ⟨.fsm, [24]⟩
  | .stRxDoneRelease => ⟨.fsm, [25]⟩
  | .stFailRelease   => ⟨.fsm, [26]⟩
  | .stDone          => ⟨.fsm, [27]⟩

/-- The byte of a table word that stands `k` bytes above its least significant one. -/
def tableByte (w k : Nat) : Byte :=
  BitVec.ofNat 8 (w / 2 ^ (8 * k))

/-- The payload bytes the decoder takes behind a header: an outbound no-payload frame has none, every other
frame as many as its clamped length (R86, R88). -/
def frameTail (typ size : Byte) : Nat :=
  if typ = Config.tCommand ∧ size = Config.filler then 0 else Machine.clampLen (Machine.unpackLen size)

/-- The port on which an 8-bit table word is read. The table gives such words to five ports, and one number can
name a row on only one of them (log 8): the six named type bytes come first, then the state codes, then the
size bytes 0x81 to 0x90 that FCT itself sends on a frame that is not the last; the rest are type bytes. -/
def tablePort (b : Byte) : Port :=
  if namedTypes.contains b then .typeByte
  else if b.toNat < 28 then .fsm
  else if Machine.packSize 1 true ≤ b ∧ b ≤ Machine.packSize Config.maxPayload true then .sizeByte
  else .typeByte

/-- A table word as the code the hardware sees. A 32-bit row is written type byte first (its most significant
byte is the byte at wire offset 0), its payload zeros; a 16-bit row is an id, whose low byte goes first on the
wire, or a link code with its out byte. -/
def tableCode (nbits w : Nat) : Option Code :=
  if nbits = 8 then some ⟨tablePort (tableByte w 0), [tableByte w 0]⟩
  else if nbits = 16 then
    if tableByte w 1 = 3 ∧ tableByte w 0 = Config.filler then some ⟨.pseudo, [tableByte w 1, tableByte w 0]⟩
    else if tableByte w 1 = 3 then some ⟨.link, [tableByte w 1, tableByte w 0]⟩
    else some ⟨.id, [tableByte w 0, tableByte w 1]⟩
  else if nbits = 32 then
    some ⟨.frame, [tableByte w 3, tableByte w 2, tableByte w 1, tableByte w 0]
      ++ List.replicate (frameTail (tableByte w 3) (tableByte w 0)) 0⟩
  else none

/-- The instruction the decoder reads from a table word. -/
def decodeTableWord (nbits w : Nat) : Option Instr :=
  match tableCode nbits w with
  | some c => (decode c).toOption
  | none => none

end Sys2Proof
end

