-- ==== Sys2Proof/Machine/State.lean ====
section
/-! DEFINITION. The state of FCT as plain data (spec/10_state.md R20 to R41), the reasons a step can stop, and the
state after reset (R39). Fields below the line "the model's own" are no state of the block: they hold its inputs
for the step, what the environment will still supply, and what the block has put out. -/

namespace Sys2Proof.Machine

/-- The 28 values of `st` (R21), in the order of their codes. -/
inductive St where
  | idle
  | txAssert
  | txType
  | txNrRelease
  | txNrDelay
  | txIdlo
  | txIdhi
  | txSize
  | txPayload
  | txFill
  | txRelease
  | txIfDelay
  | rxSettle
  | rxAssert
  | rxPoll
  | rxType
  | rxTogRelease
  | rxTogDelay1
  | rxTogAssert
  | rxTogDelay2
  | rxIdlo
  | rxIdhi
  | rxSize
  | rxPayload
  | rxAppend
  | rxDoneRelease
  | failRelease
  | done
  deriving DecidableEq, Repr, Inhabited

/-- The result codes of `err` (R33, R240). -/
inductive Err where
  | ok
  | packetTooLarge
  | writeTimeout
  | readTimeout
  | unexpectedMessageType
  | responseBufferOverflow
  deriving DecidableEq, Repr, Inhabited

/-- The four link events (R10). -/
inductive LinkEvent where
  /-- `S+` -/
  | selAssert
  /-- `S-` -/
  | selRelease
  /-- `X out>inn` -/
  | xfer (out inn : Byte)
  /-- `R?b` -/
  | ready (b : Bool)
  deriving DecidableEq, Repr

/-- What the last operation that returns a value answered to whoever issued it. -/
inductive OpResult where
  /-- Nothing yet. -/
  | none
  /-- `ENCODE_HEADER` with `enc_fail = 0`: the four bytes (R110). -/
  | header (h : Header)
  /-- `ENCODE_HEADER` with `enc_fail = 1`: no byte (R34, R110). -/
  | encFail
  /-- `DECODE_HEADER` (R111). -/
  | fields (f : HeaderFields)
  /-- `TRANSFER_BYTE` (R132). -/
  | byte (b : Byte)
  /-- `READ_BYTES` (R133). -/
  | bytes (bs : List Byte)
  /-- `READY_ASSERTED` (R134). -/
  | level (b : Bool)
  /-- `NOW` (R135). -/
  | time (t : Nat)
  deriving DecidableEq, Repr

/-- The bytes of one buffer (R60): pairs of an index and a byte, indices strictly rising, no pair whose byte is
what an unlisted index reads as. -/
abbrev Memory := List Host.Cell

/-- What the environment will still supply: the coming step inputs, the peer's coming answers to transfers and
the ready line's coming levels, oldest first; where a list has run out, the free values of Config at the number of
draws made from that list so far (R38, R139, log 1). -/
structure Env where
  inputs      : List StepInput
  bytes       : List Byte
  levels      : List Bool
  inputsDrawn : Nat
  bytesDrawn  : Nat
  levelsDrawn : Nat
  deriving DecidableEq, Repr, Inhabited

/-- The state of FCT, and below the line the model's own fields. -/
structure State where
  /-- FSM state, the program counter (R21). -/
  st       : St
  /-- Command identifier of the exchange (R22). -/
  cmdId    : Half
  /-- Outbound payload (R23). -/
  txbuf    : Memory
  /-- Length of the outbound payload, `0..TX_CAP` (R23). -/
  txLen    : Nat
  /-- Offset of the current chunk (R24). -/
  txOff    : Nat
  /-- Frame scratch: type byte (R25). -/
  fType    : Byte
  /-- Frame scratch: id (R25). -/
  fId      : Half
  /-- Frame scratch: size byte as on the wire (R25). -/
  fSize    : Byte
  /-- Frame scratch: payload length in use, `0..16` (R25). -/
  fLen     : Nat
  /-- Frame scratch: payload buffer of 16 bytes (R25). -/
  fPay     : Memory
  /-- Index of the next payload byte of the frame (R27). -/
  byteIx   : Nat
  /-- Write attempts made for the frame, `0..25` (R28). -/
  attempts : Nat
  /-- Clock value at the start of the current delay (R29). -/
  tMark    : Nat
  /-- Clock value at the start of the read window (R30). -/
  tRx      : Nat
  /-- Response accumulation buffer (R31). -/
  rxbuf    : Memory
  /-- Bytes accumulated, `0..RX_CAP` (R31). -/
  rxLen    : Nat
  /-- Select line, true = asserted (R32). -/
  sel      : Bool
  /-- Result code of the last exchange (R33). -/
  err      : Err
  -- the model's own (logs 1, 2, 3, 6, 18)
  /-- The parameters of R7: constants of the configuration, written by no step (R36). -/
  cfg      : Params
  /-- The clock input as this step reads it (R135). -/
  now      : Nat
  /-- The host port in this step (R92, R151). -/
  req      : HostReq
  /-- The reset input in this step (R270). -/
  rst      : Bool
  /-- What the environment will supply later (R38). -/
  env      : Env
  /-- A code put before the block from outside the FSM for this step; none is the block's own step. -/
  issued   : Option Code
  /-- The answers a `READ_BYTES` put before the block has read so far, in order (R133, D26, log 18). -/
  readBuf  : List Byte
  /-- The value output of the last operation that has one. -/
  result   : OpResult
  /-- The link events performed, the newest first (R10). -/
  trace    : List LinkEvent
  deriving DecidableEq, Repr

/-- Why the machine stops with a fault. -/
inductive Fault where
  /-- Raised by `ST_TX_ASSERT`, `ST_TX_PAYLOAD`, `ST_RX_PAYLOAD` and `ST_RX_APPEND` when the index they form lies
  outside the buffer. Safe: the spec says no rule does so (R66), and no state that keeps the invariants of R40
  does. -/
  | outsideBuffer (b : Buffer) (index : Nat)
  deriving DecidableEq, Repr

/-- Why a step gives the instruction no meaning. -/
inductive Refusal where
  /-- Raised by an arm of exec whose instruction has no meaning yet. Safe. No arm raises it. -/
  | notModelled (mnemonic : String)
  /-- Raised by step when the code put before the block is no instruction (R90). Safe: the spec says such codes
  are never produced, and from reset none is. -/
  | undecodable (e : DecodeError)
  deriving DecidableEq, Repr

/-- The machine right after reset (R39). Fields the spec leaves unspecified or does not have are DESIGN CHOICES:
the buffers list nothing (log 5), no input is pending and the clock reads 0 (log 2), the parameters are open
(log 3). -/
def State.reset : State where
  st       := .idle
  cmdId    := 0
  txbuf    := []
  txLen    := 0
  txOff    := 0
  fType    := 0
  fId      := 0
  fSize    := 0
  fLen     := 0
  fPay     := []
  byteIx   := 0
  attempts := 0
  tMark    := 0
  tRx      := 0
  rxbuf    := []
  rxLen    := 0
  sel      := false
  err      := .ok
  cfg      := Config.params
  now      := 0
  req      := .none
  rst      := false
  env      := { inputs := [], bytes := [], levels := [], inputsDrawn := 0, bytesDrawn := 0, levelsDrawn := 0 }
  issued   := none
  readBuf  := []
  result   := .none
  trace    := []

end Sys2Proof.Machine
end

