-- ==== Sys2Proof/Machine/Flags.lean ====
section
/-! DEFINITION. The flags and the values derived from state (R24, R33, R35, R152): functions, not registers, and
the codes of the status register `err` and of `st`. -/

namespace Sys2Proof.Machine

/-- `chunk_len`, as every send state computes it (R24, R152). -/
def State.chunkLen (s : State) : Nat :=
  chunkLenAt s.txLen s.txOff

/-- `more`, the outbound continuation flag (R24, R35, R152). -/
def State.more (s : State) : Bool :=
  moreAt s.txLen s.txOff

/-- `f_size[7]`, the received continuation flag (R35). -/
def State.contFlag (s : State) : Bool :=
  unpackCont s.fSize

/-- `busy` (R33). -/
def State.busy (s : State) : Bool :=
  s.st != .idle && s.st != .done

/-- `done` (R33). -/
def State.isDone (s : State) : Bool :=
  s.st == .done

/-- The 3-bit code of a result (R33, R240). -/
def errCode : Err → BitVec 3
  | .ok => 0
  | .packetTooLarge => 1
  | .writeTimeout => 2
  | .readTimeout => 3
  | .unexpectedMessageType => 4
  | .responseBufferOverflow => 5

/-- The 5-bit code of a state (R21). -/
def stCode : St → BitVec 5
  | .idle => 0
  | .txAssert => 1
  | .txType => 2
  | .txNrRelease => 3
  | .txNrDelay => 4
  | .txIdlo => 5
  | .txIdhi => 6
  | .txSize => 7
  | .txPayload => 8
  | .txFill => 9
  | .txRelease => 10
  | .txIfDelay => 11
  | .rxSettle => 12
  | .rxAssert => 13
  | .rxPoll => 14
  | .rxType => 15
  | .rxTogRelease => 16
  | .rxTogDelay1 => 17
  | .rxTogAssert => 18
  | .rxTogDelay2 => 19
  | .rxIdlo => 20
  | .rxIdhi => 21
  | .rxSize => 22
  | .rxPayload => 23
  | .rxAppend => 24
  | .rxDoneRelease => 25
  | .failRelease => 26
  | .done => 27

/-- Whether a run of `n` indices from `base` lies inside a buffer of `cap` bytes (R66). -/
def inBuffer (cap base n : Nat) : Bool :=
  n == 0 || decide (base + n ≤ cap)

end Sys2Proof.Machine
end

