-- ==== Sys2Proof/Machine/Ops.lean ====
section
/-! DEFINITION. The named operations the meanings are built from: buffers, the environment's draws, the link
primitives, the delay, entry, failure, the pieces of sending and receiving a frame, and how a step finds its
instruction. -/

namespace Sys2Proof.Machine

/-! ## Buffers (R60, R64, R65) -/

/-- What an index that no pair lists reads as. DESIGN CHOICE (log 5): the spec leaves such bytes unspecified and
no rule reads one; for `f_pay` it is also the value the entry step gives every byte (R25). -/
def unlisted : Byte := 0

/-- The byte at an index. -/
def Memory.read : Memory → Nat → Byte
  | [], _ => unlisted
  | (k, v) :: rest, a => if k = a then v else Memory.read rest a

/-- One byte written at an index, the form kept canonical. -/
def Memory.write : Memory → Nat → Byte → Memory
  | [], a, b => if b = unlisted then [] else [(a, b)]
  | (k, v) :: rest, a, b =>
    if a < k then (if b = unlisted then (k, v) :: rest else (a, b) :: (k, v) :: rest)
    else if a = k then (if b = unlisted then rest else (a, b) :: rest)
    else (k, v) :: Memory.write rest a b

/-- The canonical form from an index on: indices strictly rising, no byte that an unlisted index reads as. -/
def Memory.wfFrom : Nat → Memory → Bool
  | _, [] => true
  | lo, (k, v) :: rest => decide (lo ≤ k) && v != unlisted && Memory.wfFrom (k + 1) rest

/-- The canonical form of a buffer. -/
def Memory.wf (m : Memory) : Bool :=
  Memory.wfFrom 0 m

/-- The bytes at `n` indices from `base`, in ascending order. -/
def Memory.readRange (m : Memory) (base : Nat) : Nat → List Byte
  | 0 => []
  | n + 1 => m.read base :: Memory.readRange m (base + 1) n

/-- Bytes written at ascending indices from `base`. -/
def Memory.writeRange (m : Memory) (base : Nat) : List Byte → Memory
  | [] => m
  | b :: rest => Memory.writeRange (m.write base b) (base + 1) rest

/-- A buffer of `n` bytes given by index. -/
def Memory.ofIndex (f : Nat → Byte) : Nat → Memory
  | 0 => []
  | n + 1 => (Memory.ofIndex f n).write n (f n)

/-! ## The environment (R5, R38, R139): every draw is the next listed value, or a free value -/

/-- The next byte the peer answers. -/
def Env.peerByte (e : Env) : Byte :=
  e.bytes.headD (Config.peerByte e.bytesDrawn)

/-- One answer of the peer taken. -/
def Env.popByte (e : Env) : Env :=
  { e with bytes := e.bytes.tail, bytesDrawn := e.bytesDrawn + 1 }

/-- The next level of the ready line. -/
def Env.readyLevel (e : Env) : Bool :=
  e.levels.headD (Config.readyLevel e.levelsDrawn)

/-- One sample of the ready line taken. -/
def Env.popLevel (e : Env) : Env :=
  { e with levels := e.levels.tail, levelsDrawn := e.levelsDrawn + 1 }

/-- The input of the next step. -/
def Env.stepInput (e : Env) : StepInput :=
  e.inputs.headD (Config.stepInput e.inputsDrawn)

/-- One step's input taken. -/
def Env.popInput (e : Env) : Env :=
  { e with inputs := e.inputs.tail, inputsDrawn := e.inputsDrawn + 1 }

/-! ## The link primitives (R130 to R134) and the clock (R135, R136) -/

/-- `st <- x`. -/
def State.goto (x : St) (s : State) : State :=
  { s with st := x }

/-- `AssertSelect()` (R130). -/
def State.assertSelect (s : State) : State :=
  { s with sel := true, trace := .selAssert :: s.trace }

/-- `Release()` (R131). -/
def State.releaseSelect (s : State) : State :=
  { s with sel := false, trace := .selRelease :: s.trace }

/-- A transfer whose two bytes are given: the event alone (R65, R132). -/
def State.exchange (out inn : Byte) (s : State) : State :=
  { s with trace := .xfer out inn :: s.trace }

/-- The state after the peer's next answer has been taken. -/
def State.takeByte (s : State) : State :=
  { s with env := s.env.popByte }

/-- `TransferByte(out)` (R132): the peer's next answer is taken; no register is written. -/
def State.transfer (out : Byte) (s : State) : State :=
  s.takeByte.exchange out s.env.peerByte

/-- `ReadyAsserted()` (R134): one level sample is taken; no register is written. -/
def State.sampleReady (s : State) : State :=
  { s with env := s.env.popLevel, trace := .ready s.env.readyLevel :: s.trace }

/-- `buffer[i] <- TransferByte(0xFF)` (R133): one transfer with the filler driven out, the answer behind those read
before. -/
def State.readOne (s : State) : State :=
  { s.transfer Config.filler with readBuf := s.readBuf ++ [s.env.peerByte] }

/-- The end of a `READ_BYTES`: the buffer is the answer (R133). -/
def State.finishRead (s : State) : State :=
  { s with result := .bytes s.readBuf, readBuf := [] }

/-- One step of `READ_BYTES(n)` (R133): each transfer is a step of its own (R10, D26), and while transfers remain the
rest of the code, which is that of `READ_BYTES(n - 1)` (R94), stays before the block (log 18). -/
def State.readStep : Nat → State → State
  | 0, s => s.finishRead
  | 1, s => s.readOne.finishRead
  | n + 2, s => { s.readOne with issued := some (encode (.readBytes (n + 1))) }

/-- The successor state of a delay (R181, R183, R184, R188, R190). -/
def delayNext : Delay → St
  | .retry      => .txAssert
  | .interframe => .txAssert
  | .settle     => .rxAssert
  | .rxtogShort => .rxTogAssert
  | .rxtogMand  => .rxPoll

/-- `SLEEP(d)` (R136): leave for the successor once the delay has lasted its ticks, else be in `stay`. -/
def State.sleepIn (d : Delay) (stay : St) (s : State) : State :=
  s.goto (if s.now - s.tMark ≥ delayTicks s.cfg d then delayNext d else stay)

/-! ## Entry, failure and return (R151, R249, R250) -/

/-- `fail(E)` (R249), the one way a fatal error is taken: `err` gets the code, and the exit is `FAIL_RELEASE`
where select is asserted, `DONE` where it has been released. Nothing else is saved. -/
def State.fail (e : Err) (selected : Bool) (s : State) : State :=
  { s with err := e, st := if selected then .failRelease else .done }

/-- The entry step (R151), which is also the only way out of `DONE` (R218, R250): the scratch and the counters
are cleared, `err` with them, then the size is checked. -/
def State.enter (commandId : Half) (payload : List Byte) (s : State) : State :=
  let c := { s with fType := 0, fId := 0, fSize := 0, fLen := 0, fPay := [], rxLen := 0, err := .ok,
                    attempts := 0, txOff := 0, byteIx := 0 }
  if payload.length > c.cfg.txCap then c.fail .packetTooLarge false
  else { c with cmdId := commandId, txbuf := c.txbuf.writeRange 0 payload, txLen := payload.length, st := .txAssert }

/-! ## Sending one frame (R153 to R160, R180), the frame's fields given -/

/-- Step 1 of a frame (R153): select, the attempt counted, the send-side copies. DEDUCED (log 10): `byte_ix` counts
the bytes of the current frame already moved and never exceeds `f_len` (R27, R40 I4), so it is 0 where a frame starts;
the pseudocode of R153, which sets `f_len`, does not write it. -/
def State.sendAssert (id : Half) (more : Bool) (payload : List Byte) (s : State) : State :=
  { s.assertSelect with
    attempts := s.attempts + 1, fType := Config.tCommand, fId := id, fLen := payload.length,
    fSize := if payload.length > 0 then packSize payload.length more else 0x00,
    fPay := s.fPay.writeRange 0 payload, byteIx := 0, st := .txType }

/-- The echo of the type byte (R154): only 0xFE means "not ready". -/
def State.takeEcho (r : Byte) (s : State) : State :=
  (s.exchange Config.tCommand r).goto (if r = Config.sNotReady then .txNrRelease else .txIdlo)

/-- Step 2 of a frame (R154). -/
def State.sendType (s : State) : State :=
  s.takeByte.takeEcho s.env.peerByte

/-- After a not-ready echo (R180): release, then the ceiling. -/
def State.notReady (s : State) : State :=
  if s.attempts ≥ Config.writeAttemptMax then s.releaseSelect.fail .writeTimeout false
  else { s.releaseSelect with tMark := s.now, st := .txNrDelay }

/-- The id's low byte (R155). -/
def State.sendIdLo (id : Half) (s : State) : State :=
  (s.transfer (idLo id)).goto .txIdhi

/-- The id's high byte and the choice between the wire forms (R156, D23). -/
def State.sendIdHi (id : Half) (len : Nat) (s : State) : State :=
  (s.transfer (idHi id)).goto
    (if len > 0 ∨ Config.zeroLenForm = .sizeThenFiller then .txSize else .txFill)

/-- The size byte (R157, D23). -/
def State.sendSize (len : Nat) (more : Bool) (s : State) : State :=
  { s.transfer (packSize len more) with
    byteIx := 0,
    st := if len = 0 ∧ Config.zeroLenForm = .sizeThenFiller then .txFill else .txPayload }

/-- One payload byte of a chunk of `len` (R158). -/
def State.sendByte (len : Nat) (b : Byte) (s : State) : State :=
  { s.transfer b with
    byteIx := s.byteIx + 1, st := if s.byteIx + 1 = len then .txRelease else .txPayload }

/-- The filler of a no-payload frame (R159). -/
def State.sendFill (s : State) : State :=
  (s.transfer Config.filler).goto .txRelease

/-- The release that ends a frame (R160), `len` and `more` taken before the offset moves. -/
def State.sendRelease (len : Nat) (more : Bool) (s : State) : State :=
  { s.releaseSelect with
    tMark := s.now, attempts := 0, txOff := s.txOff + len, st := if more then .txIfDelay else .rxSettle }

/-- What follows the id bytes on the wire (R86): the size byte and the payload, or the filler. -/
def State.sendBody (more : Bool) (payload : List Byte) (s : State) : State :=
  if payload = [] then
    (if Config.zeroLenForm = .sizeThenFiller then s.sendSize 0 more else s).sendFill
  else payload.foldl (fun t b => t.sendByte payload.length b) (s.sendSize payload.length more)

/-- One whole write attempt of a frame (R86): the frame and its release, or one type byte answered 0xFE and
what follows that. -/
def State.sendFrame (id : Half) (more : Bool) (payload : List Byte) (s : State) : State :=
  let t := (s.sendAssert id more payload).sendType
  if t.st = .txNrRelease then t.notReady
  else ((((t.sendIdLo id).sendIdHi id payload.length).sendBody more payload).sendRelease payload.length more)

/-! ## Receiving one frame (R210 to R215), the byte read given -/

/-- The byte in the type position (R210). -/
def State.takeType (r : Byte) (s : State) : State :=
  let t := { s.exchange Config.filler r with fType := r }
  match typeClass r with
  | .response   => t.goto .rxIdlo
  | .sentinel   => t.goto .rxTogRelease
  | .unexpected => t.fail .unexpectedMessageType true

/-- The id's low byte (R211). -/
def State.takeIdLo (r : Byte) (s : State) : State :=
  { s.exchange Config.filler r with fId := joinId r (idHi s.fId), st := .rxIdhi }

/-- The id's high byte (R212). -/
def State.takeIdHi (r : Byte) (s : State) : State :=
  { s.exchange Config.filler r with fId := joinId (idLo s.fId) r, st := .rxSize }

/-- The size byte, the length clamped before anything uses it (R213, R221). -/
def State.takeSize (r : Byte) (s : State) : State :=
  { s.exchange Config.filler r with
    fSize := r, fLen := clampLen (unpackLen r), byteIx := 0,
    st := if clampLen (unpackLen r) = 0 then .rxAppend else .rxPayload }

/-- One payload byte (R214). -/
def State.takePayload (r : Byte) (s : State) : State :=
  { s.exchange Config.filler r with
    fPay := s.fPay.write s.byteIx r, byteIx := s.byteIx + 1,
    st := if s.byteIx + 1 = s.fLen then .rxAppend else .rxPayload }

/-- Whether the frame read does not fit the response buffer (R215, R222). -/
def State.overflows (s : State) : Bool :=
  decide (s.rxLen + s.fLen > s.cfg.rxCap)

/-- The append and the continuation test (R215), for a frame that fits. -/
def State.append (s : State) : State :=
  { s with
    rxbuf := s.rxbuf.writeRange s.rxLen (s.fPay.readRange 0 s.fLen), rxLen := s.rxLen + s.fLen,
    st := if s.contFlag then .rxPoll else .rxDoneRelease }

/-- `RX_APPEND` (R215): the overflow test comes first, and then nothing is appended. -/
def State.finishFrame (s : State) : State :=
  if s.overflows then s.fail .responseBufferOverflow true else s.append

/-- What the host may read as the response (R218, R275): the accumulated bytes, in `DONE` and without an error
only. -/
def State.response (s : State) : Option (List Byte) :=
  if s.st = .done ∧ s.err = .ok then some (s.rxbuf.readRange 0 s.rxLen) else none

/-! ## The step's instruction, its inputs, and the reset input -/

/-- The state a code stands for, none for 28 and above (R21). -/
def stOfCode (c : Byte) : Option St :=
  [St.idle, .txAssert, .txType, .txNrRelease, .txNrDelay, .txIdlo, .txIdhi, .txSize, .txPayload, .txFill,
   .txRelease, .txIfDelay, .rxSettle, .rxAssert, .rxPoll, .rxType, .rxTogRelease, .rxTogDelay1, .rxTogAssert,
   .rxTogDelay2, .rxIdlo, .rxIdhi, .rxSize, .rxPayload, .rxAppend, .rxDoneRelease, .failRelease, .done][c.toNat]?

/-- The row of the opcode table that is a state's step (R21). -/
def stRow : St → Instr
  | .idle => .stIdle
  | .txAssert => .stTxAssert
  | .txType => .stTxType
  | .txNrRelease => .stTxNrRelease
  | .txNrDelay => .stTxNrDelay
  | .txIdlo => .stTxIdlo
  | .txIdhi => .stTxIdhi
  | .txSize => .stTxSize
  | .txPayload => .stTxPayload
  | .txFill => .stTxFill
  | .txRelease => .stTxRelease
  | .txIfDelay => .stTxIfDelay
  | .rxSettle => .stRxSettle
  | .rxAssert => .stRxAssert
  | .rxPoll => .stRxPoll
  | .rxType => .stRxType
  | .rxTogRelease => .stRxTogRelease
  | .rxTogDelay1 => .stRxTogDelay1
  | .rxTogAssert => .stRxTogAssert
  | .rxTogDelay2 => .stRxTogDelay2
  | .rxIdlo => .stRxIdlo
  | .rxIdhi => .stRxIdhi
  | .rxSize => .stRxSize
  | .rxPayload => .stRxPayload
  | .rxAppend => .stRxAppend
  | .rxDoneRelease => .stRxDoneRelease
  | .failRelease => .stFailRelease
  | .done => .stDone

/-- The code a step decodes: what has been put before the block, else the code of `st` (R21). -/
def State.fetch (s : State) : Code :=
  match s.issued with
  | some c => c
  | none => ⟨.fsm, [(stCode s.st).setWidth 8]⟩

/-- The codec's answer to the host port (R110, R111, R114): a function of the request alone. -/
def codecResult : HostReq → Option OpResult
  | .encodeHeader typ id length cont =>
    match encodeHeaderFields { typ := typ, id := id, len := length.toNat, cont := cont } with
    | some h => some (.header h)
    | none => some .encFail
  | .decodeHeader h => some (.fields (decodeHeaderBytes h))
  | .none | .execute _ _ => none

/-- The state a step runs its instruction in: the code put before the block is taken, and a codec request on the
host port is answered, in whatever state the FSM is (R110, R114). -/
def State.begun (s : State) : State :=
  { s with issued := none, result := (codecResult s.req).getD s.result }

/-- The inputs of the next step (R10): the clock never runs back (R135). -/
def State.nextInputs (s : State) : State :=
  { s with
    now := s.now + s.env.stepInput.advance, req := s.env.stepInput.req, rst := s.env.stepInput.reset,
    env := s.env.popInput }

/-- An instruction's outcome with the next step's inputs in place. -/
def finishStep : Host.Outcome State Fault Refusal → Host.Outcome State Fault Refusal
  | .next t    => .next t.nextInputs
  | .fault r   => .fault r
  | .refused r => .refused r

/-- The reset input (R270): every register takes the value of R39, the buffers' contents are free; no link event
is performed, though `sel` falls. The codec is no register and is not reset: it answers a request in this step as in
any other (R34, R114). -/
def State.applyReset (s : State) : State :=
  { s.begun with
    st := .idle, cmdId := 0, txLen := 0, txOff := 0, fType := 0, fId := 0, fSize := 0, fLen := 0, byteIx := 0,
    attempts := 0, tMark := 0, tRx := 0, rxLen := 0, sel := false, err := .ok, readBuf := [],
    txbuf := Memory.ofIndex (Config.resetByte .txbuf s.env.inputsDrawn) s.cfg.txCap,
    rxbuf := Memory.ofIndex (Config.resetByte .rxbuf s.env.inputsDrawn) s.cfg.rxCap,
    fPay := Memory.ofIndex (Config.resetByte .fPay s.env.inputsDrawn) Config.maxPayload }

/-- The block at the position where a code is due, the code put there: a state's code in `st`, a wire field's or
a frame's code with `st` at the place it occupies, any other code before the block, a `READ_BYTES` from its start. -/
def State.place (c : Code) (s : State) : State :=
  match c.port with
  | .fsm      => match c.bytes with
                 | [b] => match stOfCode b with
                          | some x => { s with st := x, issued := none }
                          | none => { s with issued := some c }
                 | _ => { s with issued := some c }
  | .typeByte => { s with st := .rxType, issued := some c }
  | .sizeByte => { s with st := .rxSize, issued := some c }
  | .id       => { s with st := .rxIdlo, issued := some c }
  | .frame    => { s with st := if c.bytes.head? = some Config.tCommand then .txAssert else .rxType, issued := some c }
  | .host | .link | .clock => { s with issued := some c }
  | .pseudo => { s with issued := some c, readBuf := [] }

end Sys2Proof.Machine
end

