-- ==== Sys2Proof/Machine/Codec.lean ====
section
/-! DEFINITION. The frame codec (spec/40_frame_codec.md): two pure operations. No register of R20 is read or written
(R114); the answer goes to the value output. -/

namespace Sys2Proof.Machine

/-- `ENCODE_HEADER` (R110): four bytes, or `enc_fail` and none. -/
def execEncodeHeader (typ : Byte) (id : Half) (length : Byte) (cont : Bool) (s : State) :
    Host.Outcome State Fault Refusal :=
  .next { s with result := (codecResult (.encodeHeader typ id length cont)).getD s.result }

/-- `DECODE_HEADER` (R111). -/
def execDecodeHeader (h : Header) (s : State) : Host.Outcome State Fault Refusal :=
  .next { s with result := (codecResult (.decodeHeader h)).getD s.result }

end Sys2Proof.Machine
end

