-- ==== Sys2Proof/Machine/Handshake.lean ====
section
/-! DEFINITION. The select-line handshake and the ready-signal poller (spec/43_handshake_ready.md). -/

namespace Sys2Proof.Machine

/-- State `TX_NR_RELEASE` (R180, R182). -/
def execStTxNrRelease (s : State) : Host.Outcome State Fault Refusal :=
  .next s.notReady

/-- State `TX_NR_DELAY` (R181). -/
def execStTxNrDelay (s : State) : Host.Outcome State Fault Refusal :=
  .next (s.sleepIn .retry .txNrDelay)

/-- State `TX_IF_DELAY` (R183). -/
def execStTxIfDelay (s : State) : Host.Outcome State Fault Refusal :=
  .next (s.sleepIn .interframe .txIfDelay)

/-- State `RX_SETTLE` (R184). -/
def execStRxSettle (s : State) : Host.Outcome State Fault Refusal :=
  .next (s.sleepIn .settle .rxSettle)

/-- State `RX_ASSERT` (R185): the one write of `t_rx` (R191). -/
def execStRxAssert (s : State) : Host.Outcome State Fault Refusal :=
  .next { s.assertSelect with tRx := s.now, st := .rxPoll }

/-- State `RX_POLL` (R186): the window first, and then no sample is taken (R248). -/
def execStRxPoll (s : State) : Host.Outcome State Fault Refusal :=
  .next (if s.now - s.tRx ≥ s.cfg.readTimeout then s.fail .readTimeout true
    else s.sampleReady.goto (if s.env.readyLevel then .rxType else .rxPoll))

/-- State `RX_TOG_RELEASE` (R187). -/
def execStRxTogRelease (s : State) : Host.Outcome State Fault Refusal :=
  .next { s.releaseSelect with tMark := s.now, st := .rxTogDelay1 }

/-- State `RX_TOG_DELAY1` (R188). -/
def execStRxTogDelay1 (s : State) : Host.Outcome State Fault Refusal :=
  .next (s.sleepIn .rxtogShort .rxTogDelay1)

/-- State `RX_TOG_ASSERT` (R189). -/
def execStRxTogAssert (s : State) : Host.Outcome State Fault Refusal :=
  .next { s.assertSelect with tMark := s.now, st := .rxTogDelay2 }

/-- State `RX_TOG_DELAY2` (R190). -/
def execStRxTogDelay2 (s : State) : Host.Outcome State Fault Refusal :=
  .next (s.sleepIn .rxtogMand .rxTogDelay2)

end Sys2Proof.Machine
end

