-- ==== Sys2Proof/Machine/Link.lean ====
section
/-! DEFINITION. The link port's operations, the clock's, and `READ_BYTES` (spec/41_link_driver.md), each as the
primitive it is: the link event, `sel` where it writes it, and the value it answers. -/

namespace Sys2Proof.Machine

/-- `ASSERT_SELECT` (R130). -/
def execAssertSelect (s : State) : Host.Outcome State Fault Refusal :=
  .next s.assertSelect

/-- `RELEASE` (R131). -/
def execRelease (s : State) : Host.Outcome State Fault Refusal :=
  .next s.releaseSelect

/-- `TRANSFER_BYTE` (R132). -/
def execTransferByte (out : Byte) (s : State) : Host.Outcome State Fault Refusal :=
  .next { s.transfer out with result := .byte s.env.peerByte }

/-- `READY_ASSERTED` (R134). -/
def execReadyAsserted (s : State) : Host.Outcome State Fault Refusal :=
  .next { s.sampleReady with result := .level s.env.readyLevel }

/-- `NOW` (R135). -/
def execNow (s : State) : Host.Outcome State Fault Refusal :=
  .next { s with result := .time s.now }

/-- `SLEEP(d)` (R136): `st <- NEXT` once the delay has lasted, else `st <- st`. DESIGN CHOICE (log 19): the spec gives
`SLEEP` as a delay state only, with a `t_mark` and a `NEXT` of its own; put before the block as a code in any other state
it does the same, measured from `t_mark` as it stands, with the successor of the delay it names. -/
def execSleep (d : Delay) (s : State) : Host.Outcome State Fault Refusal :=
  .next (s.sleepIn d s.st)

/-- `READ_BYTES(n)` (R133, R94): `n` transfers of the filler, one a step (R10, D26), the answers in order; this is its next
step, and without a transfer its only one. How the rest of it is held between the steps is the model's (log 18). -/
def execReadBytes (n : Nat) (s : State) : Host.Outcome State Fault Refusal :=
  .next (s.readStep n)

end Sys2Proof.Machine
end

