-- ==== Sys2Proof/Machine/Reassembly.lean ====
section
/-! DEFINITION. The packet-reassembly controller (spec/44_reassembly.md): one byte of a frame a step, the append, and
the two exits. -/

namespace Sys2Proof.Machine

/-- State `RX_TYPE` (R210). -/
def execStRxType (s : State) : Host.Outcome State Fault Refusal :=
  .next (s.takeByte.takeType s.env.peerByte)

/-- State `RX_IDLO` (R211). -/
def execStRxIdlo (s : State) : Host.Outcome State Fault Refusal :=
  .next (s.takeByte.takeIdLo s.env.peerByte)

/-- State `RX_IDHI` (R212). -/
def execStRxIdhi (s : State) : Host.Outcome State Fault Refusal :=
  .next (s.takeByte.takeIdHi s.env.peerByte)

/-- State `RX_SIZE` (R213). -/
def execStRxSize (s : State) : Host.Outcome State Fault Refusal :=
  .next (s.takeByte.takeSize s.env.peerByte)

/-- State `RX_PAYLOAD` (R214). -/
def execStRxPayload (s : State) : Host.Outcome State Fault Refusal :=
  if inBuffer Config.maxPayload s.byteIx 1 then .next (s.takeByte.takePayload s.env.peerByte)
  else .fault (.outsideBuffer .fPay s.byteIx)

/-- State `RX_APPEND` (R215). -/
def execStRxAppend (s : State) : Host.Outcome State Fault Refusal :=
  if s.overflows || inBuffer Config.maxPayload 0 s.fLen then .next s.finishFrame
  else .fault (.outsideBuffer .fPay (s.fLen - 1))

/-- State `RX_DONE_RELEASE` (R216). -/
def execStRxDoneRelease (s : State) : Host.Outcome State Fault Refusal :=
  .next (s.releaseSelect.goto .done)

/-- State `FAIL_RELEASE` (R217). -/
def execStFailRelease (s : State) : Host.Outcome State Fault Refusal :=
  .next (s.releaseSelect.goto .done)

end Sys2Proof.Machine
end

