-- ==== Sys2Proof/Machine/Send.lean ====
section
/-! DEFINITION. `EXECUTE`, the entry step, and the send states (spec/42_execute_fragmentation.md). Each state's rule
takes the frame's fields from the registers: the id from `cmd_id`, the chunk from `txbuf`, `tx_off`, `tx_len`. -/

namespace Sys2Proof.Machine

/-- The entry step as the host port presents it (R151): without an `EXECUTE` nothing changes. -/
def State.entryStep (s : State) : State :=
  match s.req with
  | .execute commandId payload => s.enter commandId payload
  | .none | .encodeHeader _ _ _ _ | .decodeHeader _ => s

/-- `EXECUTE` (R150, its entry step R151): while busy the request is not read (R165). -/
def execExecute (commandId : Half) (payload : List Byte) (s : State) : Host.Outcome State Fault Refusal :=
  .next (if s.busy then s else s.enter commandId payload)

/-- State `IDLE` (R151). -/
def execStIdle (s : State) : Host.Outcome State Fault Refusal :=
  .next s.entryStep

/-- State `DONE` (R218): the entry step, exactly as from `IDLE`. -/
def execStDone (s : State) : Host.Outcome State Fault Refusal :=
  .next s.entryStep

/-- State `TX_ASSERT` (R153). -/
def execStTxAssert (s : State) : Host.Outcome State Fault Refusal :=
  if inBuffer s.cfg.txCap s.txOff s.chunkLen then
    .next (s.sendAssert s.cmdId s.more (s.txbuf.readRange s.txOff s.chunkLen))
  else .fault (.outsideBuffer .txbuf (s.txOff + s.chunkLen - 1))

/-- State `TX_TYPE` (R154). -/
def execStTxType (s : State) : Host.Outcome State Fault Refusal :=
  .next s.sendType

/-- State `TX_IDLO` (R155). -/
def execStTxIdlo (s : State) : Host.Outcome State Fault Refusal :=
  .next (s.sendIdLo s.cmdId)

/-- State `TX_IDHI` (R156). -/
def execStTxIdhi (s : State) : Host.Outcome State Fault Refusal :=
  .next (s.sendIdHi s.cmdId s.chunkLen)

/-- State `TX_SIZE` (R157). -/
def execStTxSize (s : State) : Host.Outcome State Fault Refusal :=
  .next (s.sendSize s.chunkLen s.more)

/-- State `TX_PAYLOAD` (R158). -/
def execStTxPayload (s : State) : Host.Outcome State Fault Refusal :=
  if inBuffer s.cfg.txCap (s.txOff + s.byteIx) 1 then
    .next (s.sendByte s.chunkLen (s.txbuf.read (s.txOff + s.byteIx)))
  else .fault (.outsideBuffer .txbuf (s.txOff + s.byteIx))

/-- State `TX_FILL` (R159). -/
def execStTxFill (s : State) : Host.Outcome State Fault Refusal :=
  .next s.sendFill

/-- State `TX_RELEASE` (R160). -/
def execStTxRelease (s : State) : Host.Outcome State Fault Refusal :=
  .next (s.sendRelease s.chunkLen s.more)

end Sys2Proof.Machine
end

