-- ==== Sys2Proof/Machine/Wire.lean ====
section
/-! DEFINITION. The wire forms and the values of the wire's fields (spec/30_encoding.md R81, R83, R86, R88, R89).
A row acts in the position it occupies, which `st` names, and there does what the states that move it do, its own
fields being the bytes moved (log 9). Anywhere else its bytes are not in that position: data inside a frame is
never interpreted (R65, R93; U17), and nothing changes. -/

namespace Sys2Proof.Machine

/-- A byte arrives in a type position: as the echo of the outbound type byte (R154), or as the first byte of an
inbound frame (R210). -/
def State.typeArrives (t : Byte) (s : State) : State :=
  if s.st = .txType then s.takeEcho t
  else if s.st = .rxType then s.takeType t
  else s

/-- A size byte moves: read in `RX_SIZE` (R213); sent in `TX_SIZE` as the encoder builds it from its length and
continuation flag (R84, R157), or not at all where the encoder fails (R110). -/
def State.sizeMoves (cont : Bool) (unused : BitVec 2) (len : BitVec 5) (s : State) : State :=
  if s.st = .rxSize then s.takeSize (sizeBits cont unused len)
  else if s.st = .txSize then
    (if len.toNat ≤ Config.maxPayload then s.sendSize len.toNat cont else { s with result := .encFail })
  else s

/-- An id moves, low byte first (R62): read in `RX_IDLO` and `RX_IDHI` (R211, R212), sent in `TX_IDLO` and
`TX_IDHI` (R155, R156). No rule tests its value (R89). -/
def State.idMoves (id : Half) (s : State) : State :=
  if s.st = .rxIdlo then (s.takeIdLo (idLo id)).takeIdHi (idHi id)
  else if s.st = .txIdlo then (s.sendIdLo id).sendIdHi id s.chunkLen
  else s

/-- A whole Response frame is read, from its type byte to the append (R88, R210 to R215). -/
def State.readFrame (id : Half) (size : Byte) (payload : List Byte) (s : State) : State :=
  let header := (((s.takeType Config.tResponse).takeIdLo (idLo id)).takeIdHi (idHi id)).takeSize size
  (payload.foldl (fun t r => t.takePayload r) header).finishFrame

/-- `FRAME_OUT_PAYLOAD` (R86 form a): one write attempt of this frame. -/
def execFrameOutPayload (id : Half) (more : Bool) (payload : List Byte) (s : State) :
    Host.Outcome State Fault Refusal :=
  .next (if s.st = .txAssert then s.sendFrame id more payload else s)

/-- `FRAME_OUT_EMPTY` (R86 form b): one write attempt of the frame without payload, never continued (R152). -/
def execFrameOutEmpty (id : Half) (s : State) : Host.Outcome State Fault Refusal :=
  .next (if s.st = .txAssert then s.sendFrame id false [] else s)

/-- `FRAME_IN_RESPONSE` (R88). -/
def execFrameInResponse (id : Half) (cont : Bool) (unused : BitVec 2) (len : BitVec 5) (payload : List Byte)
    (s : State) : Host.Outcome State Fault Refusal :=
  .next (if s.st = .rxType then s.readFrame id (sizeBits cont unused len) payload else s)

/-- `TYPE_COMMAND`. -/
def execTypeCommand (s : State) : Host.Outcome State Fault Refusal :=
  .next (s.typeArrives Config.tCommand)

/-- `TYPE_RESPONSE`. -/
def execTypeResponse (s : State) : Host.Outcome State Fault Refusal :=
  .next (s.typeArrives Config.tResponse)

/-- `TYPE_ALERT`. -/
def execTypeAlert (s : State) : Host.Outcome State Fault Refusal :=
  .next (s.typeArrives Config.tAlert)

/-- `TYPE_ERROR`, by decision D15 classed like every value the source does not name. -/
def execTypeError (s : State) : Host.Outcome State Fault Refusal :=
  .next (s.typeArrives Config.tError)

/-- `TYPE_DEVICE_NOT_READY`. -/
def execTypeDeviceNotReady (s : State) : Host.Outcome State Fault Refusal :=
  .next (s.typeArrives Config.sNotReady)

/-- `TYPE_READ_OVERFLOW`. -/
def execTypeReadOverflow (s : State) : Host.Outcome State Fault Refusal :=
  .next (s.typeArrives Config.sOverflow)

/-- `TYPE_OTHER`. -/
def execTypeOther (t : Byte) (s : State) : Host.Outcome State Fault Refusal :=
  .next (s.typeArrives t)

/-- `SIZE_BYTE`. -/
def execSizeByte (cont : Bool) (unused : BitVec 2) (len : BitVec 5) (s : State) :
    Host.Outcome State Fault Refusal :=
  .next (s.sizeMoves cont unused len)

/-- `ID_INIT`. -/
def execIdInit (s : State) : Host.Outcome State Fault Refusal :=
  .next (s.idMoves Config.idInit)

/-- `ID_AT_WRAPPER`. -/
def execIdAtWrapper (s : State) : Host.Outcome State Fault Refusal :=
  .next (s.idMoves Config.idAtWrap)

end Sys2Proof.Machine
end

