-- ==== Sys2Proof/Machine/Dispatch.lean ====
section
/-! DEFINITION. One arm per row of spec/opcode_table.json, each one direct call of its meaning. -/

namespace Sys2Proof.Machine

/-- The meaning of an instruction. -/
def exec (i : Instr) (s : State) : Host.Outcome State Fault Refusal :=
  match i with
  | .frameOutPayload id more payload => Sys2Proof.Machine.execFrameOutPayload id more payload s
  | .frameOutEmpty id => Sys2Proof.Machine.execFrameOutEmpty id s
  | .frameInResponse id cont unused len payload => Sys2Proof.Machine.execFrameInResponse id cont unused len payload s
  | .typeCommand => Sys2Proof.Machine.execTypeCommand s
  | .typeResponse => Sys2Proof.Machine.execTypeResponse s
  | .typeAlert => Sys2Proof.Machine.execTypeAlert s
  | .typeError => Sys2Proof.Machine.execTypeError s
  | .typeDeviceNotReady => Sys2Proof.Machine.execTypeDeviceNotReady s
  | .typeReadOverflow => Sys2Proof.Machine.execTypeReadOverflow s
  | .typeOther t => Sys2Proof.Machine.execTypeOther t s
  | .sizeByte cont unused len => Sys2Proof.Machine.execSizeByte cont unused len s
  | .idInit => Sys2Proof.Machine.execIdInit s
  | .idAtWrapper => Sys2Proof.Machine.execIdAtWrapper s
  | .encodeHeader typ id length cont => Sys2Proof.Machine.execEncodeHeader typ id length cont s
  | .decodeHeader h => Sys2Proof.Machine.execDecodeHeader h s
  | .execute commandId payload => Sys2Proof.Machine.execExecute commandId payload s
  | .assertSelect => Sys2Proof.Machine.execAssertSelect s
  | .release => Sys2Proof.Machine.execRelease s
  | .transferByte out => Sys2Proof.Machine.execTransferByte out s
  | .readyAsserted => Sys2Proof.Machine.execReadyAsserted s
  | .now => Sys2Proof.Machine.execNow s
  | .sleep d => Sys2Proof.Machine.execSleep d s
  | .readBytes n => Sys2Proof.Machine.execReadBytes n s
  | .stIdle => Sys2Proof.Machine.execStIdle s
  | .stTxAssert => Sys2Proof.Machine.execStTxAssert s
  | .stTxType => Sys2Proof.Machine.execStTxType s
  | .stTxNrRelease => Sys2Proof.Machine.execStTxNrRelease s
  | .stTxNrDelay => Sys2Proof.Machine.execStTxNrDelay s
  | .stTxIdlo => Sys2Proof.Machine.execStTxIdlo s
  | .stTxIdhi => Sys2Proof.Machine.execStTxIdhi s
  | .stTxSize => Sys2Proof.Machine.execStTxSize s
  | .stTxPayload => Sys2Proof.Machine.execStTxPayload s
  | .stTxFill => Sys2Proof.Machine.execStTxFill s
  | .stTxRelease => Sys2Proof.Machine.execStTxRelease s
  | .stTxIfDelay => Sys2Proof.Machine.execStTxIfDelay s
  | .stRxSettle => Sys2Proof.Machine.execStRxSettle s
  | .stRxAssert => Sys2Proof.Machine.execStRxAssert s
  | .stRxPoll => Sys2Proof.Machine.execStRxPoll s
  | .stRxType => Sys2Proof.Machine.execStRxType s
  | .stRxTogRelease => Sys2Proof.Machine.execStRxTogRelease s
  | .stRxTogDelay1 => Sys2Proof.Machine.execStRxTogDelay1 s
  | .stRxTogAssert => Sys2Proof.Machine.execStRxTogAssert s
  | .stRxTogDelay2 => Sys2Proof.Machine.execStRxTogDelay2 s
  | .stRxIdlo => Sys2Proof.Machine.execStRxIdlo s
  | .stRxIdhi => Sys2Proof.Machine.execStRxIdhi s
  | .stRxSize => Sys2Proof.Machine.execStRxSize s
  | .stRxPayload => Sys2Proof.Machine.execStRxPayload s
  | .stRxAppend => Sys2Proof.Machine.execStRxAppend s
  | .stRxDoneRelease => Sys2Proof.Machine.execStRxDoneRelease s
  | .stFailRelease => Sys2Proof.Machine.execStFailRelease s
  | .stDone => Sys2Proof.Machine.execStDone s

end Sys2Proof.Machine
end

