-- ==== Sys2Proof/Machine/Step.lean ====
section
/-! DEFINITION. One step: the reset input, else the instruction that `st` (or what has been put before the block)
names, then the inputs of the next step (R10, R21, R270). -/

namespace Sys2Proof.Machine

/-- One step of the core. -/
def step (s : State) : Host.Outcome State Fault Refusal :=
  if s.rst then .next s.applyReset.nextInputs
  else
    match decode s.fetch with
    | .ok i => finishStep (exec i s.begun)
    | .error e => .refused (.undecodable e)

/-- The state with a table word where the next step finds it (log 8): a state's code in `st`, a frame's or a wire
field's code before the block with `st` at its position, any other code before the block. -/
def State.withFetchWord (s : State) (nbits w : Nat) : State :=
  match tableCode nbits w with
  | some c => s.place c
  | none => { s with issued := some ⟨.frame, []⟩ }

end Sys2Proof.Machine
end

