-- ==== Sys2Proof/Safety.lean ====
section
/-! DEFINITION. The terms claims use: the invariants of R40 and what keeps every buffer access inside its buffer
(R66), the peer's answers as a list, the bytes of a frame on the wire, and quiet step inputs. -/

namespace Sys2Proof.Safety

open Sys2Proof.Machine

/-- The states in which select is asserted (R40 I6). -/
def selectIn : St → Bool
  | .txType | .txNrRelease | .txIdlo | .txIdhi | .txSize | .txPayload | .txFill | .txRelease | .rxPoll | .rxType
  | .rxTogRelease | .rxTogDelay2 | .rxIdlo | .rxIdhi | .rxSize | .rxPayload | .rxAppend | .rxDoneRelease
  | .failRelease => true
  | .idle | .txAssert | .txNrDelay | .txIfDelay | .rxSettle | .rxAssert | .rxTogDelay1 | .rxTogAssert
  | .done => false

/-- The states of the source's phase Sending (R21), codes 1 to 11. -/
def sending : St → Bool
  | .txAssert | .txType | .txNrRelease | .txNrDelay | .txIdlo | .txIdhi | .txSize | .txPayload | .txFill
  | .txRelease | .txIfDelay => true
  | .idle | .rxSettle | .rxAssert | .rxPoll | .rxType | .rxTogRelease | .rxTogDelay1 | .rxTogAssert
  | .rxTogDelay2 | .rxIdlo | .rxIdhi | .rxSize | .rxPayload | .rxAppend | .rxDoneRelease | .failRelease
  | .done => false

/-- Every index a buffer lists lies below its capacity (R60). -/
def inside (m : Memory) (cap : Nat) : Bool :=
  m.all (fun c => decide (c.1 < cap))

/-- The invariants of R40 (I1 and I7 hold by the types of `st` and `err`), with what the rules of each state rely
on. -/
structure Inv (s : State) : Prop where
  /-- The parameters are legal (R7). -/
  txCap_pos : 1 ≤ s.cfg.txCap
  rxCap_pos : 1 ≤ s.cfg.rxCap
  /-- Nothing has been put before the block from outside the FSM. -/
  issued : s.issued = none
  /-- The buffers keep their form and their bounds (R60). -/
  txbuf_wf : s.txbuf.wf = true
  rxbuf_wf : s.rxbuf.wf = true
  fPay_wf : s.fPay.wf = true
  txbuf_in : inside s.txbuf s.cfg.txCap = true
  rxbuf_in : inside s.rxbuf s.cfg.rxCap = true
  fPay_in : inside s.fPay Config.maxPayload = true
  /-- I2. -/
  txOff_le : s.txOff ≤ s.txLen
  txLen_le : s.txLen ≤ s.cfg.txCap
  /-- I3. -/
  rxLen_le : s.rxLen ≤ s.cfg.rxCap
  /-- I4. -/
  fLen_le : s.fLen ≤ Config.maxPayload
  byteIx_le : s.byteIx ≤ s.fLen
  /-- I5. -/
  attempts_le : s.attempts ≤ Config.writeAttemptMax
  /-- I6. -/
  sel_eq : s.sel = selectIn s.st
  /-- I8. -/
  aligned : sending s.st = true → 16 ∣ s.txOff
  /-- The clock samples are not in the future (R135). -/
  tMark_le : s.tMark ≤ s.now
  tRx_le : s.tRx ≤ s.now
  /-- A frame is being sent, or is about to be, only while bytes remain, or for an empty payload (R152). -/
  remains : sending s.st = true → s.txLen = 0 ∨ s.txOff < s.txLen
  /-- Outside the send states and the two resting states the whole payload has gone out, unless sending failed. -/
  sent : s.st ≠ .idle → s.st ≠ .done → sending s.st = false → s.txOff = s.txLen
  /-- An attempt is still to be had where one is about to start (R164). -/
  attempt_left : s.st = .txAssert ∨ s.st = .txNrDelay ∨ s.st = .txIfDelay → s.attempts < Config.writeAttemptMax
  /-- The size byte and the payload go out only with a payload (R156). -/
  has_payload : s.st = .txSize ∨ s.st = .txPayload ∨ s.st = .txIfDelay → s.txOff < s.txLen
  /-- From `TX_ASSERT` to the last payload byte `f_len` is the chunk's length (R153). -/
  sending_len : s.st = .txType ∨ s.st = .txIdlo ∨ s.st = .txIdhi ∨ s.st = .txSize ∨ s.st = .txPayload →
    s.fLen = s.chunkLen
  /-- `TX_PAYLOAD` counts inside the chunk (R158). -/
  sending_ix : s.st = .txPayload → s.byteIx < s.chunkLen
  /-- `RX_PAYLOAD` counts inside the frame (R214). -/
  receiving_ix : s.st = .rxPayload → s.byteIx < s.fLen
  /-- While an exchange runs no error is recorded, but on the failure exit (R249). -/
  no_error : s.st ≠ .idle → s.st ≠ .done → s.st ≠ .failRelease → s.err = .ok
  error_taken : s.st = .failRelease → s.err ≠ .ok

/-- The peer's next `n` answers, listed ones first, then free values. -/
def answers : Nat → Env → List Byte
  | 0, _ => []
  | n + 1, e => e.peerByte :: answers n e.popByte

/-- What the environment still supplies after `n` answers of the peer. -/
def afterAnswers : Nat → Env → Env
  | 0, e => e
  | n + 1, e => afterAnswers n e.popByte

/-- The events of transfers, the bytes out paired with the answers, the newest first. -/
def transfers (outs ins : List Byte) : List LinkEvent :=
  (List.zipWith LinkEvent.xfer outs ins).reverse

/-- The bytes of an outbound frame with payload on the wire (R86 form a). -/
def outboundBytes (id : Half) (more : Bool) (payload : List Byte) : List Byte :=
  0x10 :: id.extractLsb' 0 8 :: id.extractLsb' 8 8
    :: ((if more then 0x80 else 0x00) ||| BitVec.ofNat 8 payload.length) :: payload

/-- The bytes of a Response frame on the wire (R88). -/
def responseBytes (id : Half) (size : Byte) (payload : List Byte) : List Byte :=
  0x20 :: id.extractLsb' 0 8 :: id.extractLsb' 8 8 :: size :: payload

/-- Step inputs that bring no reset and no request; the clock advances as it will. -/
def quiet (xs : List StepInput) : Prop :=
  ∀ x ∈ xs, x.reset = false ∧ x.req = .none

/-- How far the clock advances over some step inputs. -/
def elapsed (xs : List StepInput) : Nat :=
  (xs.map StepInput.advance).sum

/-- `sel`, as the state of the select line in an event's step: transfers and samples need it asserted. -/
def needsSelect : LinkEvent → Bool
  | .xfer _ _ | .ready _ => true
  | .selAssert | .selRelease => false

/-- What can pass between two frames of a response without changing it (R186, R187, R220). -/
inductive Wait where
  /-- The ready line is sampled and is not asserted. -/
  | notReady
  /-- The line is asserted, 0xFE stands in the type position, select is toggled. -/
  | deviceNotReady
  /-- The line is asserted, 0xFF stands in the type position, select is toggled. -/
  | readOverflow
  deriving DecidableEq, Repr

/-- The bytes the peer answers in a wait. -/
def Wait.bytes : Wait → List Byte
  | .notReady => []
  | .deviceNotReady => [0xFE]
  | .readOverflow => [0xFF]

/-- The level the line is sampled at in a wait. -/
def Wait.level : Wait → Bool
  | .notReady => false
  | .deviceNotReady | .readOverflow => true

/-- The steps a wait takes: the poll, and for a sentinel the type byte and the toggle's four states, each left at
once. -/
def Wait.steps : Wait → Nat
  | .notReady => 1
  | .deviceNotReady | .readOverflow => 6

/-- A Response frame of a message, without its place in it: what passes before it, its id, the two unused bits of
the size byte, its payload. -/
structure Piece where
  before  : List Wait
  id      : Half
  unused  : BitVec 2
  payload : List Byte

/-- The wire bytes of a frame of a message, the sentinels before it first. -/
def Piece.bytes (cont : Bool) (p : Piece) : List Byte :=
  p.before.flatMap Wait.bytes
    ++ responseBytes p.id (sizeBits cont p.unused (BitVec.ofNat 5 p.payload.length)) p.payload

/-- The wire bytes of a response of several frames (R220): the continuation flag set on every frame but the
last. -/
def messageBytes : List Piece → List Byte
  | [] => []
  | [p] => p.bytes false
  | p :: q :: rest => p.bytes true ++ messageBytes (q :: rest)

/-- The levels the ready line is sampled at while a response of several frames is read: those of the waits, and
asserted before each frame. -/
def messageLevels (ps : List Piece) : List Bool :=
  ps.flatMap (fun p => p.before.map Wait.level ++ [true])

/-- The payload bytes of a response of several frames. -/
def messagePayload (ps : List Piece) : List Byte :=
  ps.flatMap Piece.payload

/-- The steps one frame of a response takes from `RX_POLL`: its waits, the poll that finds the line asserted, four
header bytes, the payload, the append. -/
def pieceSteps (p : Piece) : Nat :=
  (p.before.map Wait.steps).sum + 6 + p.payload.length

/-- `n` send attempts answered "not ready", the newest event first (R192). -/
def refusedAttempts : Nat → List LinkEvent
  | 0 => []
  | n + 1 => .selRelease :: .xfer 0x10 0xFE :: .selAssert :: refusedAttempts n

/-- `TX_RELEASE` taken `n` times over, from a state in which it is due. -/
def afterReleases : Nat → State → State
  | 0, s => s
  | n + 1, s =>
    match exec .stTxRelease s with
    | .next t => afterReleases n t
    | .fault _ | .refused _ => s

end Sys2Proof.Safety
end

