-- ==== Sys2Proof/Certificates/Slice0/Obligations.lean ====
section
/-! DEFINITION. The statements for the provers. An equation `exec i s = .next { s with … }` is result, frame and
completion in one: every register, buffer and flag it does not name is as before. -/

open Sys2Proof Sys2Proof.Machine Sys2Proof.Safety

/-! ## The frame codec -/

/-- R110. -/
def Obligations.EncodeHeaderGivesFourBytesOrFails : Prop :=
  ∀ (typ : Byte) (id : Half) (length : Byte) (cont : Bool) (s : State),
    exec (.encodeHeader typ id length cont) s =
      .next { s with
        result := if length.toNat > 16 then .encFail
          else .header { typ := typ, idLo := id.extractLsb' 0 8, idHi := id.extractLsb' 8 8,
                         size := (if cont then 0x80 else 0x00) ||| length } }

/-- R111. -/
def Obligations.DecodeHeaderSplitsFourBytes : Prop :=
  ∀ (h : Header) (s : State),
    exec (.decodeHeader h) s =
      .next { s with
        result := .fields { typ := h.typ, id := h.idHi ++ h.idLo, len := (h.size &&& 0x1F).toNat,
                            cont := h.size >>> 7 != 0 } }

/-- R112. -/
def Obligations.EncodeThenDecodeRoundTrips : Prop :=
  ∀ f : HeaderFields, f.len ≤ 16 → (encodeHeaderFields f).map decodeHeaderBytes = some f

/-- R113, an inference of the spec. -/
def Obligations.DecodeThenEncodeClearsUnusedBits : Prop :=
  ∀ h : Header,
    ((h.size &&& 0x1F).toNat > 16 → encodeHeaderFields (decodeHeaderBytes h) = none) ∧
    ((h.size &&& 0x1F).toNat ≤ 16 →
      encodeHeaderFields (decodeHeaderBytes h) = some { h with size := h.size &&& 0x9F }) ∧
    (encodeHeaderFields (decodeHeaderBytes h) = some h ↔
      h.size.extractLsb' 5 2 = 0 ∧ (h.size &&& 0x1F).toNat ≤ 16)

/-- R114: on the host port the codec may be used whatever the FSM does, and under the reset input, and the step is
otherwise the one it would have been. That the answer comes in the request's own step is the model's choice (log 6). -/
def Obligations.CodecRequestDisturbsNoStep : Prop :=
  ∀ (s t : State) (typ : Byte) (id : Half) (length : Byte) (cont : Bool) (h : Header),
    s.issued = none → step { s with req := .none } = .next t →
    (step { s with req := .encodeHeader typ id length cont } = .next { t with
        result := if length.toNat > 16 then .encFail
          else .header { typ := typ, idLo := id.extractLsb' 0 8, idHi := id.extractLsb' 8 8,
                         size := (if cont then 0x80 else 0x00) ||| length } }) ∧
    (step { s with req := .decodeHeader h } = .next { t with
        result := .fields { typ := h.typ, id := h.idHi ++ h.idLo, len := (h.size &&& 0x1F).toNat,
                            cont := h.size >>> 7 != 0 } })

/-! ## The link port and the clock -/

/-- R130, R131, R132, R134. -/
def Obligations.LinkPrimitivesDoTheirEvents : Prop :=
  ∀ s : State,
    exec .assertSelect s = .next { s with sel := true, trace := .selAssert :: s.trace } ∧
    exec .release s = .next { s with sel := false, trace := .selRelease :: s.trace } ∧
    (∀ out : Byte, exec (.transferByte out) s =
      .next { s with env := s.env.popByte, trace := .xfer out s.env.peerByte :: s.trace,
                     result := .byte s.env.peerByte }) ∧
    exec .readyAsserted s =
      .next { s with env := s.env.popLevel, trace := .ready s.env.readyLevel :: s.trace,
                     result := .level s.env.readyLevel }

/-- R133, R94, D26, R10: each transfer of a `READ_BYTES(n)` is a step of its own, and put before the block it takes `n`
steps, whatever the host requests meanwhile. That the FSM waits meanwhile, that the rest stands as a code before the
block and the bytes read in `readBuf`, and that reset drops both, is the model's choice (logs 14, 18). -/
def Obligations.ReadBytesIsRepeatedTransfer : Prop :=
  (∀ s : State, exec (.readBytes 0) s = .next { s with result := .bytes s.readBuf, readBuf := [] }) ∧
  (∀ (n : Nat) (s : State),
    let t := { s with env := s.env.popByte, trace := .xfer 0xFF s.env.peerByte :: s.trace }
    exec (.readBytes (n + 1)) s =
      .next (if n = 0 then { t with result := .bytes (s.readBuf ++ [s.env.peerByte]), readBuf := [] }
        else { t with readBuf := s.readBuf ++ [s.env.peerByte], issued := some (encode (.readBytes n)) })) ∧
  (∀ (n : Nat) (s : State) (xs later : List StepInput), 1 ≤ n → s.issued = some (encode (.readBytes n)) →
    s.readBuf = [] → s.rst = false → s.env.inputs = xs ++ later → xs.length = n → (∀ x ∈ xs, x.reset = false) →
    ∃ (e : Env) (r : HostReq),
      Host.Core.run Sys2Proof.core n s =
        .next { s with env := e, req := r, now := s.now + elapsed xs, issued := none,
                       trace := transfers (List.replicate n 0xFF) (answers n s.env) ++ s.trace,
                       result := .bytes (answers n s.env) } ∧
      e.inputs = later ∧ e.levels = s.env.levels ∧ e.bytes = s.env.bytes.drop n) ∧
  (∀ (n : Nat) (e : Env) (listed rest : List Byte), e.bytes = listed ++ rest → listed.length = n →
    answers n e = listed) ∧
  (∀ s t : State, s.rst = true → step s = .next t → t.issued = none ∧ t.readBuf = [])

/-- R135. -/
def Obligations.ClockIsReadAndNeverRunsBack : Prop :=
  ∀ s : State,
    exec .now s = .next { s with result := .time s.now } ∧ (∀ t, step s = .next t → s.now ≤ t.now)

/-- R136. For a state that is not the delay's own it is the model's choice (log 19). -/
def Obligations.SleepLeavesOnceElapsed : Prop :=
  ∀ s : State,
    exec (.sleep .retry) s = .next { s with st := if s.now - s.tMark ≥ s.cfg.tRetry then .txAssert else s.st } ∧
    exec (.sleep .interframe) s =
      .next { s with st := if s.now - s.tMark ≥ s.cfg.tInterframe then .txAssert else s.st } ∧
    exec (.sleep .settle) s = .next { s with st := if s.now - s.tMark ≥ s.cfg.tSettle then .rxAssert else s.st } ∧
    exec (.sleep .rxtogShort) s =
      .next { s with st := if s.now - s.tMark ≥ s.cfg.tRxtogShort then .rxTogAssert else s.st } ∧
    exec (.sleep .rxtogMand) s =
      .next { s with st := if s.now - s.tMark ≥ s.cfg.tRxtogMand then .rxPoll else s.st }

/-- R181, R183, R184, R188, R190. -/
def Obligations.DelayStatesHoldTheirDelay : Prop :=
  ∀ s : State,
    exec .stTxNrDelay s = .next { s with st := if s.now - s.tMark ≥ s.cfg.tRetry then .txAssert else .txNrDelay } ∧
    exec .stTxIfDelay s =
      .next { s with st := if s.now - s.tMark ≥ s.cfg.tInterframe then .txAssert else .txIfDelay } ∧
    exec .stRxSettle s = .next { s with st := if s.now - s.tMark ≥ s.cfg.tSettle then .rxAssert else .rxSettle } ∧
    exec .stRxTogDelay1 s =
      .next { s with st := if s.now - s.tMark ≥ s.cfg.tRxtogShort then .rxTogAssert else .rxTogDelay1 } ∧
    exec .stRxTogDelay2 s =
      .next { s with st := if s.now - s.tMark ≥ s.cfg.tRxtogMand then .rxPoll else .rxTogDelay2 }

/-! ## Entry -/

/-- R151 without a request, in `IDLE` and in `DONE` (R218). -/
def Obligations.WithoutExecuteTheBlockWaits : Prop :=
  ∀ s : State, (∀ id payload, s.req ≠ .execute id payload) → exec .stIdle s = .next s ∧ exec .stDone s = .next s

/-- R151, R218, R241: a payload longer than `TX_CAP`. -/
def Obligations.TooLongPayloadIsRejectedAtEntry : Prop :=
  ∀ (s : State) (id : Half) (payload : List Byte), payload.length > s.cfg.txCap →
    let rejected (r : State) : State :=
      { r with fType := 0, fId := 0, fSize := 0, fLen := 0, fPay := [], rxLen := 0, attempts := 0, txOff := 0,
               byteIx := 0, err := .packetTooLarge, st := .done }
    (s.req = .execute id payload → exec .stIdle s = .next (rejected s) ∧ exec .stDone s = .next (rejected s)) ∧
    (s.st = .idle ∨ s.st = .done → exec (.execute id payload) s = .next (rejected s)) ∧
    (∀ i, Memory.read (rejected s).fPay i = 0)

/-- R151, R218: the exchange starts, by the request on the port and by the operation alike. -/
def Obligations.ExecuteStartsAnExchange : Prop :=
  ∀ (s : State) (id : Half) (payload : List Byte), payload.length ≤ s.cfg.txCap → s.txbuf.wf = true →
    ∃ buf : Memory,
      (∀ i, Memory.read buf i = if h : i < payload.length then payload[i] else Memory.read s.txbuf i) ∧
      (let started (r : State) : State :=
        { r with fType := 0, fId := 0, fSize := 0, fLen := 0, fPay := [], rxLen := 0, attempts := 0, txOff := 0,
                 byteIx := 0, err := .ok, cmdId := id, txbuf := buf, txLen := payload.length, st := .txAssert }
       (s.req = .execute id payload → exec .stIdle s = .next (started s) ∧ exec .stDone s = .next (started s)) ∧
       (s.st = .idle ∨ s.st = .done → exec (.execute id payload) s = .next (started s)))

/-- R165. -/
def Obligations.RequestWhileBusyIsLost : Prop :=
  ∀ (s : State) (id : Half) (payload : List Byte), s.st ≠ .idle → s.st ≠ .done →
    exec (.execute id payload) s = .next s ∧
    (s.rst = false → s.issued = none →
      step { s with req := .execute id payload } = step { s with req := .none })

/-! ## The send states -/

/-- R153; that `byte_ix` is 0 where a frame starts is the model's deduction from R27 and R40 (log 10). -/
def Obligations.TxAssertSelectsAndLoadsScratch : Prop :=
  ∀ s : State, s.fPay.wf = true →
    let n := min 16 (s.txLen - s.txOff)
    n = 0 ∨ s.txOff + n ≤ s.cfg.txCap →
    ∃ pay : Memory,
      exec .stTxAssert s =
        .next { s with
          sel := true, trace := .selAssert :: s.trace, attempts := s.attempts + 1, fType := 0x10,
          fId := s.cmdId, fLen := n,
          fSize := if n > 0 then (if s.txOff + n < s.txLen then 0x80 else 0x00) ||| BitVec.ofNat 8 n else 0x00,
          fPay := pay, byteIx := 0, st := .txType } ∧
      (∀ i, Memory.read pay i = if i < n then Memory.read s.txbuf (s.txOff + i) else Memory.read s.fPay i)

/-- R154, R155, R156, R159. -/
def Obligations.TxHeaderStatesSendTypeAndId : Prop :=
  ∀ s : State,
    exec .stTxType s =
      .next { s with env := s.env.popByte, trace := .xfer 0x10 s.env.peerByte :: s.trace,
                     st := if s.env.peerByte = 0xFE then .txNrRelease else .txIdlo } ∧
    exec .stTxIdlo s =
      .next { s with env := s.env.popByte, trace := .xfer (s.cmdId.extractLsb' 0 8) s.env.peerByte :: s.trace,
                     st := .txIdhi } ∧
    exec .stTxIdhi s =
      .next { s with env := s.env.popByte, trace := .xfer (s.cmdId.extractLsb' 8 8) s.env.peerByte :: s.trace,
                     st := if min 16 (s.txLen - s.txOff) > 0 then .txSize else .txFill } ∧
    exec .stTxFill s =
      .next { s with env := s.env.popByte, trace := .xfer 0xFF s.env.peerByte :: s.trace, st := .txRelease }

/-- R157, with its corner case: the byte is `hdr[3]` of `ENCODE_HEADER`. -/
def Obligations.TxSizeSendsThePackedSize : Prop :=
  ∀ s : State,
    let n := min 16 (s.txLen - s.txOff)
    let more := decide (s.txOff + n < s.txLen)
    let size : Byte := (if more then 0x80 else 0x00) ||| BitVec.ofNat 8 n
    exec .stTxSize s =
      .next { s with env := s.env.popByte, trace := .xfer size s.env.peerByte :: s.trace, byteIx := 0,
                     st := .txPayload } ∧
    (encodeHeaderFields { typ := 0x10, id := s.cmdId, len := n, cont := more }).map Header.size = some size

/-- R158. -/
def Obligations.TxPayloadSendsOneByte : Prop :=
  ∀ s : State, s.txOff + s.byteIx < s.cfg.txCap →
    exec .stTxPayload s =
      .next { s with env := s.env.popByte,
                     trace := .xfer (Memory.read s.txbuf (s.txOff + s.byteIx)) s.env.peerByte :: s.trace,
                     st := if s.byteIx + 1 = min 16 (s.txLen - s.txOff) then .txRelease else .txPayload,
                     byteIx := s.byteIx + 1 }

/-- R160. -/
def Obligations.TxReleaseEndsTheFrame : Prop :=
  ∀ s : State,
    let n := min 16 (s.txLen - s.txOff)
    exec .stTxRelease s =
      .next { s with sel := false, trace := .selRelease :: s.trace, tMark := s.now, attempts := 0,
                     txOff := s.txOff + n,
                     st := if s.txOff + n < s.txLen then .txIfDelay else .rxSettle }

/-- R152: the chunks of a payload of any length, met by `TX_RELEASE` one after the other. -/
def Obligations.ChunksAreSixteenBytesInOrder : Prop :=
  ∀ (s : State) (k : Nat), s.txOff = 0 → k < max 1 ((s.txLen + 15) / 16) →
    (afterReleases k s).txOff = 16 * k ∧
    (afterReleases k s).chunkLen = min 16 (s.txLen - 16 * k) ∧
    ((afterReleases k s).more = true ↔ k + 1 < max 1 ((s.txLen + 15) / 16)) ∧
    (k + 1 = max 1 ((s.txLen + 15) / 16) → (afterReleases (k + 1) s).txOff = s.txLen)

/-! ## The handshake and the poller -/

/-- R180. -/
def Obligations.NotReadyEchoRetriesOrTimesOut : Prop :=
  ∀ s : State,
    exec .stTxNrRelease s =
      .next (if s.attempts ≥ 25 then
          { s with sel := false, trace := .selRelease :: s.trace, err := .writeTimeout, st := .done }
        else { s with sel := false, trace := .selRelease :: s.trace, tMark := s.now, st := .txNrDelay })

/-- R185, R187, R189. -/
def Obligations.ReceiveSelectStatesStampTheClock : Prop :=
  ∀ s : State,
    exec .stRxAssert s =
      .next { s with sel := true, trace := .selAssert :: s.trace, tRx := s.now, st := .rxPoll } ∧
    exec .stRxTogRelease s =
      .next { s with sel := false, trace := .selRelease :: s.trace, tMark := s.now, st := .rxTogDelay1 } ∧
    exec .stRxTogAssert s =
      .next { s with sel := true, trace := .selAssert :: s.trace, tMark := s.now, st := .rxTogDelay2 }

/-- R186: the window is tested before the line is sampled. -/
def Obligations.RxPollTestsTheWindowFirst : Prop :=
  ∀ s : State,
    exec .stRxPoll s =
      .next (if s.now - s.tRx ≥ s.cfg.readTimeout then { s with err := .readTimeout, st := .failRelease }
        else { s with env := s.env.popLevel, trace := .ready s.env.readyLevel :: s.trace,
                      st := if s.env.readyLevel then .rxType else .rxPoll })

/-! ## Reassembly -/

/-- R210. -/
def Obligations.RxTypeClassifiesTheByte : Prop :=
  ∀ s : State,
    let r := s.env.peerByte
    let t := { s with env := s.env.popByte, trace := .xfer 0xFF r :: s.trace, fType := r }
    exec .stRxType s =
      .next (if r = 0x20 then { t with st := .rxIdlo }
        else if r = 0xFE ∨ r = 0xFF then { t with st := .rxTogRelease }
        else { t with err := .unexpectedMessageType, st := .failRelease })

/-- R211, R212. -/
def Obligations.RxIdStatesStoreLowByteFirst : Prop :=
  ∀ s : State,
    exec .stRxIdlo s =
      .next { s with env := s.env.popByte, trace := .xfer 0xFF s.env.peerByte :: s.trace,
                     fId := s.fId.extractLsb' 8 8 ++ s.env.peerByte, st := .rxIdhi } ∧
    exec .stRxIdhi s =
      .next { s with env := s.env.popByte, trace := .xfer 0xFF s.env.peerByte :: s.trace,
                     fId := s.env.peerByte ++ s.fId.extractLsb' 0 8, st := .rxSize }

/-- R213. -/
def Obligations.RxSizeClampsTheLength : Prop :=
  ∀ s : State,
    let r := s.env.peerByte
    exec .stRxSize s =
      .next { s with env := s.env.popByte, trace := .xfer 0xFF r :: s.trace, fSize := r,
                     fLen := min (r &&& 0x1F).toNat 16, byteIx := 0,
                     st := if min (r &&& 0x1F).toNat 16 = 0 then .rxAppend else .rxPayload }

/-- R214, and its frame in the payload buffer. -/
def Obligations.RxPayloadStoresOneByte : Prop :=
  ∀ s : State, s.fPay.wf = true → s.byteIx < 16 →
    ∃ pay : Memory,
      exec .stRxPayload s =
        .next { s with env := s.env.popByte, trace := .xfer 0xFF s.env.peerByte :: s.trace, fPay := pay,
                       st := if s.byteIx + 1 = s.fLen then .rxAppend else .rxPayload,
                       byteIx := s.byteIx + 1 } ∧
      (∀ i, Memory.read pay i = if i = s.byteIx then s.env.peerByte else Memory.read s.fPay i)

/-- R215, R222: the overflow test first, then the append, then the continuation flag. -/
def Obligations.RxAppendAppendsOrOverflows : Prop :=
  ∀ s : State, s.rxbuf.wf = true → s.fLen ≤ 16 →
    (s.rxLen + s.fLen > s.cfg.rxCap →
      exec .stRxAppend s = .next { s with err := .responseBufferOverflow, st := .failRelease }) ∧
    (s.rxLen + s.fLen ≤ s.cfg.rxCap →
      ∃ buf : Memory,
        exec .stRxAppend s =
          .next { s with rxbuf := buf, rxLen := s.rxLen + s.fLen,
                         st := if s.fSize.getLsbD 7 then .rxPoll else .rxDoneRelease } ∧
        (∀ i, Memory.read buf i =
          if s.rxLen ≤ i ∧ i < s.rxLen + s.fLen then Memory.read s.fPay (i - s.rxLen)
          else Memory.read s.rxbuf i))

/-- R216, R217. -/
def Obligations.ExitsReleaseSelect : Prop :=
  ∀ s : State,
    exec .stRxDoneRelease s = .next { s with sel := false, trace := .selRelease :: s.trace, st := .done } ∧
    exec .stFailRelease s = .next { s with sel := false, trace := .selRelease :: s.trace, st := .done }

/-! ## The wire's fields and forms -/

/-- R81, R210: what each row of the type byte does where a frame is read. That a row acts in the position `st` names is
the model's choice (log 9). -/
def Obligations.TypeRowsOnReceive : Prop :=
  ∀ s : State, s.st = .rxType →
    let read (b : Byte) : State := { s with trace := .xfer 0xFF b :: s.trace, fType := b }
    let fatal (b : Byte) : State := { read b with err := .unexpectedMessageType, st := .failRelease }
    exec .typeResponse s = .next { read 0x20 with st := .rxIdlo } ∧
    exec .typeDeviceNotReady s = .next { read 0xFE with st := .rxTogRelease } ∧
    exec .typeReadOverflow s = .next { read 0xFF with st := .rxTogRelease } ∧
    exec .typeCommand s = .next (fatal 0x10) ∧
    exec .typeAlert s = .next (fatal 0x40) ∧
    exec .typeError s = .next (fatal 0x80) ∧
    (∀ b : Byte, b ∉ [0x10, 0x20, 0x40, 0x80, 0xFE, 0xFF] → exec (.typeOther b) s = .next (fatal b))

/-- R81, R154: what each row of the type byte does as the echo of the outbound type byte. That a row acts in the position
`st` names is the model's choice (log 9). -/
def Obligations.TypeRowsAsEcho : Prop :=
  ∀ s : State, s.st = .txType →
    let taken (b : Byte) : State := { s with trace := .xfer 0x10 b :: s.trace, st := .txIdlo }
    exec .typeDeviceNotReady s = .next { s with trace := .xfer 0x10 0xFE :: s.trace, st := .txNrRelease } ∧
    exec .typeCommand s = .next (taken 0x10) ∧
    exec .typeResponse s = .next (taken 0x20) ∧
    exec .typeAlert s = .next (taken 0x40) ∧
    exec .typeError s = .next (taken 0x80) ∧
    exec .typeReadOverflow s = .next (taken 0xFF) ∧
    (∀ b : Byte, b ≠ 0xFE → exec (.typeOther b) s = .next (taken b))

/-- R83, R84, R213 where a size byte is read; R85, R157 where it is sent. That the row acts in the position `st` names is
the model's choice (log 9). -/
def Obligations.SizeByteReadAndSent : Prop :=
  ∀ (s : State) (cont : Bool) (unused : BitVec 2) (len : BitVec 5),
    (s.st = .rxSize →
      exec (.sizeByte cont unused len) s =
        .next { s with trace := .xfer 0xFF (BitVec.ofBool cont ++ unused ++ len) :: s.trace,
                       fSize := BitVec.ofBool cont ++ unused ++ len, fLen := min len.toNat 16, byteIx := 0,
                       st := if len = 0 then .rxAppend else .rxPayload }) ∧
    (s.st = .txSize → len.toNat ≤ 16 →
      exec (.sizeByte cont unused len) s =
        .next { s with env := s.env.popByte,
                       trace := .xfer (BitVec.ofBool cont ++ (0 : BitVec 2) ++ len) s.env.peerByte :: s.trace,
                       byteIx := 0, st := .txPayload }) ∧
    (s.st = .txSize → 16 < len.toNat →
      exec (.sizeByte cont unused len) s = .next { s with result := .encFail })

/-- R89, R62: the two reserved ids where an id is read and where it is sent. That an id's row run as one instruction moves
both bytes in the position `st` names is the model's choice (log 9). -/
def Obligations.ReservedIdsMoveLowByteFirst : Prop :=
  ∀ s : State,
    (s.st = .rxIdlo →
      exec .idInit s = .next { s with trace := .xfer 0xFF 0xBE :: .xfer 0xFF 0xEF :: s.trace, fId := 0xBEEF,
                                      st := .rxSize } ∧
      exec .idAtWrapper s = .next { s with trace := .xfer 0xFF 0x0A :: .xfer 0xFF 0x00 :: s.trace,
                                           fId := 0x0A00, st := .rxSize }) ∧
    (s.st = .txIdlo →
      let next : St := if min 16 (s.txLen - s.txOff) > 0 then .txSize else .txFill
      exec .idInit s =
        .next { s with env := afterAnswers 2 s.env, st := next,
                       trace := transfers [0xEF, 0xBE] (answers 2 s.env) ++ s.trace } ∧
      exec .idAtWrapper s =
        .next { s with env := afterAnswers 2 s.env, st := next,
                       trace := transfers [0x00, 0x0A] (answers 2 s.env) ++ s.trace })

/-- R86 form (a): one select-asserted stretch carries the frame's bytes in order. That the row run as one instruction is
a whole write attempt from `TX_ASSERT`, with its own fields, is the model's choice (log 9). -/
def Obligations.PayloadFrameOnTheWire : Prop :=
  ∀ (s : State) (id : Half) (more : Bool) (payload : List Byte),
    s.st = .txAssert → 1 ≤ payload.length → payload.length ≤ 16 → s.fPay.wf = true → s.env.peerByte ≠ 0xFE →
    ∃ pay : Memory,
      exec (.frameOutPayload id more payload) s =
        .next { s with
          sel := false, env := afterAnswers (4 + payload.length) s.env,
          trace := .selRelease :: transfers (outboundBytes id more payload) (answers (4 + payload.length) s.env)
            ++ .selAssert :: s.trace,
          attempts := 0, fType := 0x10, fId := id, fLen := payload.length,
          fSize := (if more then 0x80 else 0x00) ||| BitVec.ofNat 8 payload.length, fPay := pay,
          byteIx := payload.length, tMark := s.now, txOff := s.txOff + payload.length,
          st := if more then .txIfDelay else .rxSettle } ∧
      (∀ i, Memory.read pay i = if h : i < payload.length then payload[i] else Memory.read s.fPay i)

/-- R86 form (b): four bytes, the filler in the place of the size byte. That the row run as one instruction is a whole
write attempt from `TX_ASSERT` is the model's choice (log 9); that `byte_ix` is then 0, its deduction (log 10). -/
def Obligations.EmptyFrameOnTheWire : Prop :=
  ∀ (s : State) (id : Half), s.st = .txAssert → s.env.peerByte ≠ 0xFE →
    exec (.frameOutEmpty id) s =
      .next { s with
        sel := false, env := afterAnswers 4 s.env,
        trace := .selRelease
          :: transfers [0x10, id.extractLsb' 0 8, id.extractLsb' 8 8, 0xFF] (answers 4 s.env)
          ++ .selAssert :: s.trace,
        attempts := 0, fType := 0x10, fId := id, fLen := 0, fSize := 0x00, byteIx := 0, tMark := s.now,
        st := .rxSettle }

/-- R86, R180: a failed attempt puts one byte on the wire. That a frame row run as one instruction is a whole write
attempt from `TX_ASSERT` is the model's choice (log 9). -/
def Obligations.RefusedFramePutsOneByteOnTheWire : Prop :=
  ∀ (s : State) (id : Half) (more : Bool) (payload : List Byte),
    s.st = .txAssert → 1 ≤ payload.length → payload.length ≤ 16 → s.env.peerByte = 0xFE →
    ∃ t u : State,
      exec (.frameOutPayload id more payload) s = .next t ∧ exec (.frameOutEmpty id) s = .next u ∧
      (∀ v, v = t ∨ v = u →
        v.trace = .selRelease :: .xfer 0x10 0xFE :: .selAssert :: s.trace ∧ v.sel = false ∧
        v.txOff = s.txOff ∧ v.attempts = s.attempts + 1 ∧ v.env = s.env.popByte ∧
        (s.attempts + 1 ≥ 25 → v.st = .done ∧ v.err = .writeTimeout) ∧
        (s.attempts + 1 < 25 → v.st = .txNrDelay ∧ v.err = s.err ∧ v.tMark = s.now))

/-- R88, R215: a whole Response frame is read and appended. That the row run as one instruction goes from `RX_TYPE` to the
append is the model's choice (log 9). -/
def Obligations.ResponseFrameIsReadAndAppended : Prop :=
  ∀ (s : State) (id : Half) (cont : Bool) (unused : BitVec 2) (len : BitVec 5) (payload : List Byte),
    s.st = .rxType → payload.length = min len.toNat 16 → s.fPay.wf = true → s.rxbuf.wf = true →
    let size : Byte := BitVec.ofBool cont ++ unused ++ len
    ∃ pay buf : Memory,
      (∀ i, Memory.read pay i = if h : i < payload.length then payload[i] else Memory.read s.fPay i) ∧
      (∀ i, Memory.read buf i =
        if h : s.rxLen ≤ i ∧ i - s.rxLen < payload.length then payload[i - s.rxLen] else Memory.read s.rxbuf i) ∧
      (let t : State := { s with
        trace := transfers (List.replicate (4 + payload.length) 0xFF) (responseBytes id size payload) ++ s.trace,
        fType := 0x20, fId := id, fSize := size, fLen := payload.length, fPay := pay, byteIx := payload.length }
       exec (.frameInResponse id cont unused len payload) s =
        .next (if s.rxLen + payload.length > s.cfg.rxCap then
            { t with err := .responseBufferOverflow, st := .failRelease }
          else { t with rxbuf := buf, rxLen := s.rxLen + payload.length,
                        st := if cont then .rxPoll else .rxDoneRelease }))

/-- A wire row away from the position it occupies changes nothing. The model's reading (log 9), from R65 and R93. -/
def Obligations.WireRowsActInTheirPositionOnly : Prop :=
  ∀ s : State,
    (s.st ≠ .txType → s.st ≠ .rxType →
      (∀ i ∈ [Instr.typeCommand, .typeResponse, .typeAlert, .typeError, .typeDeviceNotReady, .typeReadOverflow],
        exec i s = .next s) ∧ ∀ b, exec (.typeOther b) s = .next s) ∧
    (s.st ≠ .txSize → s.st ≠ .rxSize → ∀ c u n, exec (.sizeByte c u n) s = .next s) ∧
    (s.st ≠ .txIdlo → s.st ≠ .rxIdlo → exec .idInit s = .next s ∧ exec .idAtWrapper s = .next s) ∧
    (s.st ≠ .txAssert → ∀ id more payload,
      exec (.frameOutPayload id more payload) s = .next s ∧ exec (.frameOutEmpty id) s = .next s) ∧
    (s.st ≠ .rxType → ∀ id c u n payload, exec (.frameInResponse id c u n payload) s = .next s)

/-! ## Encoding -/

/-- Decoding undoes encoding, for every well-formed instruction of every port. -/
def Obligations.DecodeUndoesEncode : Prop :=
  ∀ i : Instr, i.wellFormed = true → decode (encode i) = .ok i

/-- R90: what the decoder accepts is a well-formed instruction and exactly that instruction's code, on every port and
for any bytes, so no reserved or unused encoding falls through to a neighbour. -/
def Obligations.DecodedIsWellFormed : Prop :=
  ∀ (c : Code) (i : Instr), decode c = .ok i → i.wellFormed = true ∧ encode i = c

/-- Words written out from the spec's encodings (R83, R86, R88, R89, R92). -/
def Obligations.SpecWordsDecode : Prop :=
  decode ⟨.frame, [0x10, 0x00, 0x0A, 0x03, 0x41, 0x54, 0x49]⟩ =
    .ok (.frameOutPayload 0x0A00 false [0x41, 0x54, 0x49]) ∧
  decode ⟨.frame, [0x10, 0xEF, 0xBE, 0xFF]⟩ = .ok (.frameOutEmpty 0xBEEF) ∧
  decode ⟨.frame, [0x20, 0x00, 0x0A, 0x02, 0x4F, 0x4B]⟩ = .ok (.frameInResponse 0x0A00 false 0 2 [0x4F, 0x4B]) ∧
  decode ⟨.typeByte, [0xFE]⟩ = .ok .typeDeviceNotReady ∧
  decode ⟨.sizeByte, [0xE3]⟩ = .ok (.sizeByte true 3 3) ∧
  decode ⟨.id, [0xEF, 0xBE]⟩ = .ok .idInit ∧
  decode ⟨.link, [0x03, 0xFF]⟩ = .ok (.transferByte 0xFF) ∧
  decode ⟨.fsm, [22]⟩ = .ok .stRxSize ∧
  decode ⟨.fsm, [28]⟩ = .error .unusedStateCode

/-! ## The step and reset -/

/-- R10, R21: a step runs the instruction its code decodes to, in the state itself with the host port's codec request
answered, then takes the next step's inputs. R21 has `st` alone choose the rule, and so it is with nothing put before
the block. That a code put before the block runs in the place of the row of `st`, and that a codec request is answered at
the start of its step, is the model's choice (log 6). -/
def Obligations.StepRunsTheDecodedInstruction : Prop :=
  ∀ (s : State) (i : Instr), s.rst = false → decode s.fetch = .ok i →
    step s = (match exec i s.begun with
      | .next t => .next t.nextInputs
      | .fault f => .fault f
      | .refused r => .refused r) ∧
    (s.issued = none → s.fetch = ⟨.fsm, [(stCode s.st).setWidth 8]⟩ ∧ i = stRow s.st) ∧
    (s.issued = none → (∀ t l i c, s.req ≠ .encodeHeader t l i c) → (∀ h, s.req ≠ .decodeHeader h) → s.begun = s)

/-- R39. -/
def Obligations.ResetLeavesTheBlockIdle : Prop :=
  let s := State.reset
  s.st = .idle ∧ s.sel = false ∧ s.err = .ok ∧ s.rxLen = 0 ∧ s.txLen = 0 ∧ s.txOff = 0 ∧ s.attempts = 0 ∧
  s.byteIx = 0 ∧ s.cmdId = 0 ∧ s.fType = 0 ∧ s.fId = 0 ∧ s.fSize = 0 ∧ s.fLen = 0 ∧ s.tMark = 0 ∧ s.tRx = 0

/-- R270: the reset input, from any state; no link event, though `sel` falls. -/
def Obligations.ResetInputTakesEveryRegister : Prop :=
  ∀ s : State, s.rst = true →
    ∃ t, step s = .next t ∧ t.st = .idle ∧ t.sel = false ∧ t.err = .ok ∧ t.rxLen = 0 ∧ t.txLen = 0 ∧
      t.txOff = 0 ∧ t.attempts = 0 ∧ t.byteIx = 0 ∧ t.cmdId = 0 ∧ t.fType = 0 ∧ t.fId = 0 ∧ t.fSize = 0 ∧
      t.fLen = 0 ∧ t.tMark = 0 ∧ t.tRx = 0 ∧ t.trace = s.trace ∧ t.cfg = s.cfg

/-! ## Invariants and whole-machine rules -/

/-- R40 at reset. -/
def Obligations.ResetMeetsTheInvariants : Prop :=
  Inv State.reset

/-- R40: every step keeps the invariants, from every state that meets them. -/
def Obligations.EveryStepKeepsTheInvariants : Prop :=
  ∀ s t : State, Inv s → step s = .next t → Inv t

/-- R66: from a state that meets the invariants no step faults or refuses. -/
def Obligations.NoStepStops : Prop :=
  ∀ s : State, Inv s → ∃ t, step s = .next t

/-- The model's own stops (log 4; R66 says no rule makes such an access; the invariants rule these states out): an index
outside its buffer faults, in the four states that form one. -/
def Obligations.AccessOutsideABufferFaults : Prop :=
  ∀ s : State,
    let n := min 16 (s.txLen - s.txOff)
    (0 < n → s.cfg.txCap < s.txOff + n →
      exec .stTxAssert s = .fault (.outsideBuffer .txbuf (s.txOff + n - 1))) ∧
    (s.cfg.txCap ≤ s.txOff + s.byteIx →
      exec .stTxPayload s = .fault (.outsideBuffer .txbuf (s.txOff + s.byteIx))) ∧
    (16 ≤ s.byteIx → exec .stRxPayload s = .fault (.outsideBuffer .fPay s.byteIx)) ∧
    (16 < s.fLen → s.rxLen + s.fLen ≤ s.cfg.rxCap →
      exec .stRxAppend s = .fault (.outsideBuffer .fPay (s.fLen - 1))) ∧
    ∀ (i : Instr) (f : Fault), exec i s = .fault f →
      i = .stTxAssert ∨ i = .stTxPayload ∨ i = .stRxPayload ∨ i = .stRxAppend

/-- The canonical form of the three buffers, which is the model's own way of holding a buffer and no rule of the spec
(log 5), is kept by every step from every state that has it, whatever has been put before the block. -/
def Obligations.BuffersStayCanonical : Prop :=
  ∀ s t : State, s.txbuf.wf = true → s.rxbuf.wf = true → s.fPay.wf = true → step s = .next t →
    t.txbuf.wf = true ∧ t.rxbuf.wf = true ∧ t.fPay.wf = true

/-- R10, R32, R130, R131: a step performs at most one link event, and the select line is as the event needs it. -/
def Obligations.OneLinkEventUnderSelectDiscipline : Prop :=
  ∀ s t : State, Inv s → step s = .next t →
    t.trace = s.trace ∨
    ∃ e, t.trace = e :: s.trace ∧
      (needsSelect e = true → s.sel = true ∧ t.sel = true) ∧
      (e = .selAssert → s.sel = false ∧ t.sel = true) ∧
      (e = .selRelease → s.sel = true ∧ t.sel = false)

/-- R22, R23, R24, R27 to R31, R36: who writes what. The parameters, the outbound message and its id, the start of
the window, the response and the counters are written in the states the rules name and nowhere else; `TX_ASSERT` among
the writers of `byte_ix` is the model's deduction (log 10). -/
def Obligations.RegistersAreWrittenWhereTheRulesSay : Prop :=
  ∀ s t : State, s.rst = false → s.issued = none → step s = .next t →
    t.cfg = s.cfg ∧
    (s.st ≠ .idle → s.st ≠ .done → t.cmdId = s.cmdId ∧ t.txbuf = s.txbuf ∧ t.txLen = s.txLen) ∧
    (s.st ≠ .rxAssert → t.tRx = s.tRx) ∧
    (s.st ≠ .idle → s.st ≠ .done → s.st ≠ .rxAppend → t.rxbuf = s.rxbuf ∧ t.rxLen = s.rxLen) ∧
    (s.st ≠ .txAssert → s.st ≠ .txRelease → s.st ≠ .idle → s.st ≠ .done → t.attempts = s.attempts) ∧
    (s.st ≠ .txNrRelease → s.st ≠ .txRelease → s.st ≠ .rxTogRelease → s.st ≠ .rxTogAssert → t.tMark = s.tMark) ∧
    (s.st ≠ .idle → s.st ≠ .done → s.st ≠ .txRelease → t.txOff = s.txOff) ∧
    (s.st ≠ .idle → s.st ≠ .done → s.st ≠ .txAssert → s.st ≠ .txSize → s.st ≠ .txPayload → s.st ≠ .rxSize →
      s.st ≠ .rxPayload → t.byteIx = s.byteIx)

/-- R240, R248, R249: the five fatal errors, each taken in the one place the rules give it. -/
def Obligations.ErrorsArriveOnlyWhereDetected : Prop :=
  ∀ s t : State, s.rst = false → s.issued = none → step s = .next t → t.err ≠ s.err → t.err ≠ .ok →
    (t.err = .packetTooLarge ∧ (s.st = .idle ∨ s.st = .done) ∧ t.st = .done) ∨
    (t.err = .writeTimeout ∧ s.st = .txNrRelease ∧ s.attempts ≥ 25 ∧ t.st = .done) ∨
    (t.err = .readTimeout ∧ s.st = .rxPoll ∧ s.now - s.tRx ≥ s.cfg.readTimeout ∧ t.st = .failRelease) ∨
    (t.err = .unexpectedMessageType ∧ s.st = .rxType ∧ t.fType ∉ [0x20, 0xFE, 0xFF] ∧ t.st = .failRelease) ∨
    (t.err = .responseBufferOverflow ∧ s.st = .rxAppend ∧ s.rxLen + s.fLen > s.cfg.rxCap ∧ t.st = .failRelease)

/-- R218, R270: only the reset input leads back to `IDLE`. -/
def Obligations.OnlyResetReturnsToIdle : Prop :=
  ∀ s t : State, s.issued = none → step s = .next t → t.st = .idle → s.rst = true ∨ s.st = .idle

/-- R219: the received id reaches nothing but `f_id`. -/
def Obligations.ReceivedIdInfluencesNothing : Prop :=
  ∀ (s t : State) (v : Half), s.issued = none → step s = .next t →
    ∃ w, step { s with fId := v } = .next { t with fId := w }

/-- R22, R82, R89: the command id is tested by no rule. Another value of it changes nothing of a step's next state but
`cmd_id` itself, the send-side copy `f_id` that `TX_ASSERT` takes, and the id byte that `TX_IDLO` or `TX_IDHI` sends. -/
def Obligations.CommandIdIsTestedByNoRule : Prop :=
  ∀ (s t : State) (v : Half), s.rst = false → s.issued = none → step s = .next t →
    ∃ (w x : Half) (events : List LinkEvent),
      step { s with cmdId := v } = .next { t with cmdId := w, fId := x, trace := events } ∧
      (s.st ≠ .idle → s.st ≠ .done → w = v) ∧
      (s.st ≠ .txAssert → x = t.fId) ∧
      (s.st ≠ .txIdlo → s.st ≠ .txIdhi → events = t.trace) ∧
      (s.st = .txIdlo → events = .xfer (v.extractLsb' 0 8) s.env.peerByte :: s.trace) ∧
      (s.st = .txIdhi → events = .xfer (v.extractLsb' 8 8) s.env.peerByte :: s.trace)

/-- R162: what the peer returns after the type byte of an outbound frame reaches nothing but the trace. -/
def Obligations.AnswersWhileSendingAreDiscarded : Prop :=
  ∀ (s t : State) (b c : Byte) (rest : List Byte), Inv s → s.rst = false →
    s.st = .txIdlo ∨ s.st = .txIdhi ∨ s.st = .txSize ∨ s.st = .txPayload ∨ s.st = .txFill →
    step { s with env := { s.env with bytes := b :: rest } } = .next t →
    ∃ out, t.trace = .xfer out b :: s.trace ∧
      step { s with env := { s.env with bytes := c :: rest } } = .next { t with trace := .xfer out c :: s.trace }

/-! ## Runs -/

/-- The FSM's send states refine the frame rows: from `TX_ASSERT`, with an accepted type byte, the steps of the send
states do what the row of the current chunk does, but for the clock's readings. What the row does run as one instruction
is the model's choice (log 9). -/
def Obligations.SendStatesRefineTheFrameRow : Prop :=
  ∀ (s : State) (xs later : List StepInput), Inv s → s.st = .txAssert → s.rst = false → s.req = .none →
    s.env.inputs = xs ++ later → xs.length = 6 + s.chunkLen → quiet xs → s.env.peerByte ≠ 0xFE →
    ∃ t u : State,
      exec (if s.chunkLen = 0 then .frameOutEmpty s.cmdId
        else .frameOutPayload s.cmdId s.more (s.txbuf.readRange s.txOff s.chunkLen)) s = .next t ∧
      Host.Core.run Sys2Proof.core (6 + s.chunkLen) s = .next u ∧
      (∃ e m w, u = { t with env := e, tMark := m, now := w }) ∧
      u.now = s.now + elapsed xs ∧ s.now ≤ u.tMark ∧ u.tMark ≤ u.now ∧ u.env.inputs = later

/-- R182, R192: `k` not-ready answers below the ceiling lead back to the type byte of the same frame; the
ceiling's worth of them ends in `WriteTimeout`. -/
def Obligations.AttemptCeilingIsExact : Prop :=
  ∀ (s : State) (k : Nat) (xs later : List StepInput) (bytes : List Byte), Inv s → s.st = .txAssert →
    s.attempts = 0 → s.rst = false → s.req = .none → k ≤ 25 → 1 ≤ k →
    s.env.bytes = List.replicate k 0xFE ++ bytes → s.env.inputs = xs ++ later → quiet xs →
    (∀ x ∈ xs, s.cfg.tRetry ≤ x.advance) →
    (k < 25 → xs.length = 4 * k →
      ∃ t, Host.Core.run Sys2Proof.core (4 * k) s = .next t ∧ t.st = .txAssert ∧ t.attempts = k ∧
        t.txOff = s.txOff ∧ t.err = s.err ∧ t.env.bytes = bytes ∧ t.trace = refusedAttempts k ++ s.trace) ∧
    (k = 25 → xs.length = 99 →
      ∃ t, Host.Core.run Sys2Proof.core 99 s = .next t ∧ t.st = .done ∧ t.err = .writeTimeout ∧ t.sel = false ∧
        t.txOff = s.txOff ∧ t.rxLen = s.rxLen ∧ t.trace = refusedAttempts 25 ++ s.trace)

/-- R187, R220: a response of several frames, each continued but the last, that arrives within the window and fits
the buffer, is delivered as the concatenation of its payloads, whatever samples of a line not asserted and whatever
sentinels come before the first frame or between frames. Where sentinels come, each toggle's delays elapse at once. -/
def Obligations.ResponseIsTheConcatenationOfPayloads : Prop :=
  ∀ (s : State) (ps : List Piece) (xs later : List StepInput) (bytes : List Byte) (levels : List Bool), Inv s →
    s.st = .rxPoll → s.rxLen = 0 → s.rst = false → s.req = .none → ps ≠ [] →
    (∀ p ∈ ps, p.payload.length ≤ 16) → (messagePayload ps).length ≤ s.cfg.rxCap →
    s.env.bytes = messageBytes ps ++ bytes → s.env.levels = messageLevels ps ++ levels →
    s.env.inputs = xs ++ later → xs.length = (ps.map pieceSteps).sum + 1 → quiet xs →
    s.now + elapsed xs - s.tRx < s.cfg.readTimeout →
    (∀ p ∈ ps, ∀ w ∈ p.before, w ≠ .notReady →
      ∀ x ∈ xs, s.cfg.tRxtogShort ≤ x.advance ∧ s.cfg.tRxtogMand ≤ x.advance) →
    ∃ t, Host.Core.run Sys2Proof.core ((ps.map pieceSteps).sum + 1) s = .next t ∧ t.st = .done ∧ t.err = .ok ∧
      t.response = some (messagePayload ps) ∧ t.rxLen = (messagePayload ps).length ∧ t.env.bytes = bytes ∧
      t.env.levels = levels

/-- R192, R243: once the window has elapsed, two steps end the exchange with `ReadTimeout`; the line is not
sampled and what was accumulated is not delivered. -/
def Obligations.ElapsedWindowEndsInReadTimeout : Prop :=
  ∀ (s : State) (x : StepInput) (later : List StepInput), Inv s → s.st = .rxPoll → s.rst = false →
    s.env.inputs = x :: later → x.reset = false → s.now - s.tRx ≥ s.cfg.readTimeout →
    ∃ t, Host.Core.run Sys2Proof.core 2 s = .next t ∧ t.st = .done ∧ t.err = .readTimeout ∧ t.sel = false ∧
      t.rxLen = s.rxLen ∧ t.rxbuf = s.rxbuf ∧ t.response = none ∧ t.trace = .selRelease :: s.trace
end

