-- ==== Sys2Proof/Laws/Memory.lean ====
section
/-! SUPPORT. The laws of a buffer: a read after a write, the canonical form and the bounds kept by every
operation, and the same for runs of indices. -/

namespace Sys2Proof.Machine

@[simp] theorem Memory.read_nil (a : Nat) : Memory.read [] a = unlisted := rfl

@[simp] theorem Memory.wf_nil : Memory.wf [] = true := rfl

theorem Memory.wfFrom_cons {lo k : Nat} {v : Byte} {m : Memory} :
    Memory.wfFrom lo ((k, v) :: m) = true ↔ lo ≤ k ∧ v ≠ unlisted ∧ Memory.wfFrom (k + 1) m = true := by
  simp [Memory.wfFrom, and_assoc]

/-- The form from an index on is the form from any lower index on. -/
theorem Memory.wfFrom_mono {lo hi : Nat} {m : Memory} (hle : lo ≤ hi) (h : Memory.wfFrom hi m = true) :
    Memory.wfFrom lo m = true := by
  cases m with
  | nil => rfl
  | cons c m =>
    obtain ⟨hk, hv, hm⟩ := Memory.wfFrom_cons.mp h
    exact Memory.wfFrom_cons.mpr ⟨by omega, hv, hm⟩

/-- Below its first index a canonical buffer lists nothing. -/
theorem Memory.read_below {lo a : Nat} {m : Memory} (h : Memory.wfFrom lo m = true) (ha : a < lo) :
    m.read a = unlisted := by
  induction m generalizing lo with
  | nil => rfl
  | cons c m ih =>
    obtain ⟨hk, -, hm⟩ := Memory.wfFrom_cons.mp h
    have hne : ¬ c.1 = a := by omega
    simp only [Memory.read, hne, if_false]
    exact ih hm (by omega)

/-- A write keeps the form from an index on. -/
theorem Memory.write_wfFrom {lo a : Nat} {m : Memory} (b : Byte) (h : Memory.wfFrom lo m = true) (ha : lo ≤ a) :
    Memory.wfFrom lo (m.write a b) = true := by
  induction m generalizing lo with
  | nil =>
    by_cases hb : b = unlisted <;> simp [Memory.write, hb, Memory.wfFrom, ha]
  | cons c m ih =>
    obtain ⟨k, v⟩ := c
    obtain ⟨hk, hv, hm⟩ := Memory.wfFrom_cons.mp h
    rcases Nat.lt_trichotomy a k with hak | hak | hak
    · by_cases hb : b = unlisted
      · simpa [Memory.write, hak, hb] using h
      · simp only [Memory.write, hak, if_true, hb, if_false]
        exact Memory.wfFrom_cons.mpr ⟨ha, hb, Memory.wfFrom_cons.mpr ⟨hak, hv, hm⟩⟩
    · subst hak
      by_cases hb : b = unlisted
      · simpa [Memory.write, hb] using Memory.wfFrom_mono (by omega) hm
      · simpa [Memory.write, hb] using Memory.wfFrom_cons.mpr ⟨hk, hb, hm⟩
    · have h1 : ¬ a < k := by omega
      have h2 : ¬ a = k := by omega
      simp only [Memory.write, h1, h2, if_false]
      exact Memory.wfFrom_cons.mpr ⟨hk, hv, ih hm (by omega)⟩

/-- A write keeps the canonical form. -/
theorem Memory.write_wf {m : Memory} (a : Nat) (b : Byte) (h : m.wf = true) : (m.write a b).wf = true :=
  Memory.write_wfFrom b h (Nat.zero_le a)

/-- What every index reads as after a write, for a buffer in the form from an index on. -/
theorem Memory.read_write_from {lo a : Nat} {m : Memory} (b : Byte) (h : Memory.wfFrom lo m = true) (i : Nat) :
    (m.write a b).read i = if i = a then b else m.read i := by
  induction m generalizing lo with
  | nil =>
    by_cases hb : b = unlisted <;> by_cases hi : i = a <;> simp [Memory.write, Memory.read, hb, hi]
    intro h
    exact absurd h.symm hi
  | cons c m ih =>
    obtain ⟨k, v⟩ := c
    obtain ⟨hk, hv, hm⟩ := Memory.wfFrom_cons.mp h
    rcases Nat.lt_trichotomy a k with hak | hak | hak
    · by_cases hb : b = unlisted
      · simp only [Memory.write, hak, if_true, hb]
        by_cases hi : i = a
        · subst hi
          rw [if_pos rfl]
          exact Memory.read_below (lo := k) (Memory.wfFrom_cons.mpr ⟨Nat.le_refl k, hv, hm⟩) hak
        · rw [if_neg hi]
      · simp only [Memory.write, hak, if_true, hb, if_false]
        by_cases hi : i = a
        · simp [Memory.read, hi]
        · have : ¬ a = i := fun h => hi h.symm
          simp [Memory.read, hi, this]
    · subst hak
      by_cases hb : b = unlisted
      · simp only [Memory.write, Nat.lt_irrefl, if_false, if_true, hb]
        by_cases hi : i = a
        · subst hi
          rw [if_pos rfl]
          exact Memory.read_below hm (by omega)
        · have : ¬ a = i := fun h => hi h.symm
          simp [Memory.read, hi, this]
      · simp only [Memory.write, Nat.lt_irrefl, if_false, if_true, hb]
        by_cases hi : i = a
        · simp [Memory.read, hi]
        · have : ¬ a = i := fun h => hi h.symm
          simp [Memory.read, hi, this]
    · have h1 : ¬ a < k := by omega
      have h2 : ¬ a = k := by omega
      simp only [Memory.write, h1, h2, if_false, Memory.read]
      by_cases hki : k = i
      · have : ¬ i = a := by omega
        simp [hki, this]
      · simp [hki, ih hm]

/-- What every index reads as after a write. -/
theorem Memory.read_write {m : Memory} (h : m.wf = true) (a : Nat) (b : Byte) (i : Nat) :
    (m.write a b).read i = if i = a then b else m.read i :=
  Memory.read_write_from b h i

/-- Writing a run of bytes keeps the canonical form. -/
theorem Memory.writeRange_wf {m : Memory} (base : Nat) (bs : List Byte) (h : m.wf = true) :
    (m.writeRange base bs).wf = true := by
  induction bs generalizing m base with
  | nil => exact h
  | cons b bs ih => exact ih (base + 1) (Memory.write_wf base b h)

/-- What every index reads as after a run of bytes was written. -/
theorem Memory.read_writeRange {m : Memory} (h : m.wf = true) (base : Nat) (bs : List Byte) (i : Nat) :
    (m.writeRange base bs).read i =
      if h : base ≤ i ∧ i - base < bs.length then bs[i - base] else m.read i := by
  induction bs generalizing m base with
  | nil => simp [Memory.writeRange]
  | cons b bs ih =>
    rw [Memory.writeRange, ih (Memory.write_wf base b h), Memory.read_write h]
    rcases Nat.lt_trichotomy i base with hi | hi | hi
    · have h1 : ¬ (base + 1 ≤ i) := by omega
      have h2 : ¬ (base ≤ i) := by omega
      have h3 : ¬ i = base := by omega
      simp [h1, h2, h3]
    · subst hi
      rw [dif_neg (by omega), if_pos rfl, dif_pos ⟨Nat.le_refl i, by simp only [List.length_cons]; omega⟩]
      simp
    · have h3 : ¬ i = base := by omega
      have e : i - base = (i - (base + 1)) + 1 := by omega
      by_cases hlt : i - (base + 1) < bs.length
      · rw [dif_pos ⟨by omega, hlt⟩, dif_pos ⟨by omega, by simp only [List.length_cons]; omega⟩]
        simp only [e, List.getElem_cons_succ]
      · rw [dif_neg (by omega), dif_neg (by simp only [List.length_cons]; omega), if_neg h3]

@[simp] theorem Memory.readRange_length (m : Memory) (base n : Nat) : (m.readRange base n).length = n := by
  induction n generalizing base with
  | zero => rfl
  | succ n ih => simp [Memory.readRange, ih]

/-- The byte at a place of a run read. -/
theorem Memory.readRange_getElem (m : Memory) (base n i : Nat) (h : i < (m.readRange base n).length) :
    (m.readRange base n)[i] = m.read (base + i) := by
  induction n generalizing base i with
  | zero => simp [Memory.readRange] at h
  | succ n ih =>
    cases i with
    | zero => rfl
    | succ i =>
      simp only [Memory.readRange, List.getElem_cons_succ]
      rw [ih (base + 1) i (by simpa [Memory.readRange] using h)]
      congr 1
      omega

/-- Two buffers that read alike over a run give the same bytes. -/
theorem Memory.readRange_congr {m m' : Memory} {base base' n : Nat}
    (h : ∀ i, i < n → m.read (base + i) = m'.read (base' + i)) : m.readRange base n = m'.readRange base' n := by
  apply List.ext_getElem (by simp)
  intro i hi hi'
  rw [Memory.readRange_getElem, Memory.readRange_getElem]
  exact h i (by simpa using hi)

/-- A buffer given by index has the canonical form. -/
theorem Memory.ofIndex_wf (f : Nat → Byte) (n : Nat) : (Memory.ofIndex f n).wf = true := by
  induction n with
  | zero => rfl
  | succ n ih => exact Memory.write_wf n (f n) ih

/-- A buffer given by index reads as given below its size, and as unlisted from there on. -/
theorem Memory.read_ofIndex (f : Nat → Byte) (n i : Nat) :
    (Memory.ofIndex f n).read i = if i < n then f i else unlisted := by
  induction n with
  | zero => simp [Memory.ofIndex]
  | succ n ih =>
    rw [Memory.ofIndex, Memory.read_write (Memory.ofIndex_wf f n), ih]
    by_cases hi : i = n
    · simp [hi]
    · by_cases hlt : i < n
      · simp [hi, hlt, Nat.lt_succ_of_lt hlt]
      · have : ¬ i < n + 1 := by omega
        simp [hi, hlt, this]

/-- The indices a write lists are those listed before and the one written. -/
theorem Memory.mem_write {m : Memory} {a : Nat} {b : Byte} {c : Host.Cell} (h : c ∈ m.write a b) :
    c ∈ m ∨ c.1 = a := by
  induction m with
  | nil =>
    by_cases hb : b = unlisted
    · simp [Memory.write, hb] at h
    · simp only [Memory.write, hb, if_false, List.mem_singleton] at h
      exact .inr (by rw [h])
  | cons d m ih =>
    obtain ⟨k, v⟩ := d
    rcases Nat.lt_trichotomy a k with hak | hak | hak
    · by_cases hb : b = unlisted
      · simp only [Memory.write, hak, if_true, hb] at h
        exact .inl h
      · simp only [Memory.write, hak, if_true, hb, if_false, List.mem_cons] at h
        rcases h with h | h
        · exact .inr (by rw [h])
        · exact .inl (List.mem_cons.mpr h)
    · subst hak
      by_cases hb : b = unlisted
      · simp only [Memory.write, Nat.lt_irrefl, if_false, if_true, hb] at h
        exact .inl (List.mem_cons_of_mem _ h)
      · simp only [Memory.write, Nat.lt_irrefl, if_false, if_true, hb, List.mem_cons] at h
        rcases h with h | h
        · exact .inr (by rw [h])
        · exact .inl (List.mem_cons_of_mem _ h)
    · have h1 : ¬ a < k := by omega
      have h2 : ¬ a = k := by omega
      simp only [Memory.write, h1, h2, if_false, List.mem_cons] at h
      rcases h with h | h
      · exact .inl (by simp [h])
      · rcases ih h with h | h
        · exact .inl (List.mem_cons_of_mem _ h)
        · exact .inr h

/-- The indices a run of writes lists lie below any bound on the buffer and the run. -/
theorem Memory.mem_writeRange {m : Memory} {base cap : Nat} {bs : List Byte} (hm : ∀ c ∈ m, c.1 < cap)
    (hb : bs = [] ∨ base + bs.length ≤ cap) : ∀ c ∈ m.writeRange base bs, c.1 < cap := by
  induction bs generalizing m base with
  | nil => exact hm
  | cons b bs ih =>
    have hlen : base + (bs.length + 1) ≤ cap := by simpa using hb
    refine ih (fun c hc => ?_) (.inr (by omega))
    rcases Memory.mem_write hc with h | h
    · exact hm c h
    · omega

/-- The indices of a buffer given by index lie below its size. -/
theorem Memory.mem_ofIndex {f : Nat → Byte} {n : Nat} : ∀ c ∈ Memory.ofIndex f n, c.1 < n := by
  induction n with
  | zero => intro c hc; simp [Memory.ofIndex] at hc
  | succ n ih =>
    intro c hc
    rcases Memory.mem_write hc with h | h
    · exact Nat.lt_succ_of_lt (ih c h)
    · omega

/-- After reset the three buffers have the canonical form. -/
theorem State.reset_buffers_wf :
    State.reset.txbuf.wf = true ∧ State.reset.rxbuf.wf = true ∧ State.reset.fPay.wf = true := ⟨rfl, rfl, rfl⟩

/-- And after the reset input, whatever the free values are. -/
theorem State.applyReset_buffers_wf (s : State) :
    s.applyReset.txbuf.wf = true ∧ s.applyReset.rxbuf.wf = true ∧ s.applyReset.fPay.wf = true := by
  rw [State.applyReset]
  exact ⟨Memory.ofIndex_wf _ _, Memory.ofIndex_wf _ _, Memory.ofIndex_wf _ _⟩

end Sys2Proof.Machine
end

