-- ==== Sys2Proof/Laws/State.lean ====
section
/-! SUPPORT. What each update of State makes of each field, true by rfl: later proofs unfold no record update. -/

namespace Sys2Proof.Machine

/-! ## goto -/

@[simp] theorem State.goto_st (s : State) (x : St) : (s.goto x).st = x := rfl
@[simp] theorem State.goto_cmdId (s : State) (x : St) : (s.goto x).cmdId = s.cmdId := rfl
@[simp] theorem State.goto_txbuf (s : State) (x : St) : (s.goto x).txbuf = s.txbuf := rfl
@[simp] theorem State.goto_txLen (s : State) (x : St) : (s.goto x).txLen = s.txLen := rfl
@[simp] theorem State.goto_txOff (s : State) (x : St) : (s.goto x).txOff = s.txOff := rfl
@[simp] theorem State.goto_fType (s : State) (x : St) : (s.goto x).fType = s.fType := rfl
@[simp] theorem State.goto_fId (s : State) (x : St) : (s.goto x).fId = s.fId := rfl
@[simp] theorem State.goto_fSize (s : State) (x : St) : (s.goto x).fSize = s.fSize := rfl
@[simp] theorem State.goto_fLen (s : State) (x : St) : (s.goto x).fLen = s.fLen := rfl
@[simp] theorem State.goto_fPay (s : State) (x : St) : (s.goto x).fPay = s.fPay := rfl
@[simp] theorem State.goto_byteIx (s : State) (x : St) : (s.goto x).byteIx = s.byteIx := rfl
@[simp] theorem State.goto_attempts (s : State) (x : St) : (s.goto x).attempts = s.attempts := rfl
@[simp] theorem State.goto_tMark (s : State) (x : St) : (s.goto x).tMark = s.tMark := rfl
@[simp] theorem State.goto_tRx (s : State) (x : St) : (s.goto x).tRx = s.tRx := rfl
@[simp] theorem State.goto_rxbuf (s : State) (x : St) : (s.goto x).rxbuf = s.rxbuf := rfl
@[simp] theorem State.goto_rxLen (s : State) (x : St) : (s.goto x).rxLen = s.rxLen := rfl
@[simp] theorem State.goto_sel (s : State) (x : St) : (s.goto x).sel = s.sel := rfl
@[simp] theorem State.goto_err (s : State) (x : St) : (s.goto x).err = s.err := rfl
@[simp] theorem State.goto_cfg (s : State) (x : St) : (s.goto x).cfg = s.cfg := rfl
@[simp] theorem State.goto_now (s : State) (x : St) : (s.goto x).now = s.now := rfl
@[simp] theorem State.goto_req (s : State) (x : St) : (s.goto x).req = s.req := rfl
@[simp] theorem State.goto_rst (s : State) (x : St) : (s.goto x).rst = s.rst := rfl
@[simp] theorem State.goto_env (s : State) (x : St) : (s.goto x).env = s.env := rfl
@[simp] theorem State.goto_issued (s : State) (x : St) : (s.goto x).issued = s.issued := rfl
@[simp] theorem State.goto_readBuf (s : State) (x : St) : (s.goto x).readBuf = s.readBuf := rfl
@[simp] theorem State.goto_result (s : State) (x : St) : (s.goto x).result = s.result := rfl
@[simp] theorem State.goto_trace (s : State) (x : St) : (s.goto x).trace = s.trace := rfl

/-! ## assertSelect -/

@[simp] theorem State.assertSelect_st (s : State) : (s.assertSelect).st = s.st := rfl
@[simp] theorem State.assertSelect_cmdId (s : State) : (s.assertSelect).cmdId = s.cmdId := rfl
@[simp] theorem State.assertSelect_txbuf (s : State) : (s.assertSelect).txbuf = s.txbuf := rfl
@[simp] theorem State.assertSelect_txLen (s : State) : (s.assertSelect).txLen = s.txLen := rfl
@[simp] theorem State.assertSelect_txOff (s : State) : (s.assertSelect).txOff = s.txOff := rfl
@[simp] theorem State.assertSelect_fType (s : State) : (s.assertSelect).fType = s.fType := rfl
@[simp] theorem State.assertSelect_fId (s : State) : (s.assertSelect).fId = s.fId := rfl
@[simp] theorem State.assertSelect_fSize (s : State) : (s.assertSelect).fSize = s.fSize := rfl
@[simp] theorem State.assertSelect_fLen (s : State) : (s.assertSelect).fLen = s.fLen := rfl
@[simp] theorem State.assertSelect_fPay (s : State) : (s.assertSelect).fPay = s.fPay := rfl
@[simp] theorem State.assertSelect_byteIx (s : State) : (s.assertSelect).byteIx = s.byteIx := rfl
@[simp] theorem State.assertSelect_attempts (s : State) : (s.assertSelect).attempts = s.attempts := rfl
@[simp] theorem State.assertSelect_tMark (s : State) : (s.assertSelect).tMark = s.tMark := rfl
@[simp] theorem State.assertSelect_tRx (s : State) : (s.assertSelect).tRx = s.tRx := rfl
@[simp] theorem State.assertSelect_rxbuf (s : State) : (s.assertSelect).rxbuf = s.rxbuf := rfl
@[simp] theorem State.assertSelect_rxLen (s : State) : (s.assertSelect).rxLen = s.rxLen := rfl
@[simp] theorem State.assertSelect_sel (s : State) : (s.assertSelect).sel = true := rfl
@[simp] theorem State.assertSelect_err (s : State) : (s.assertSelect).err = s.err := rfl
@[simp] theorem State.assertSelect_cfg (s : State) : (s.assertSelect).cfg = s.cfg := rfl
@[simp] theorem State.assertSelect_now (s : State) : (s.assertSelect).now = s.now := rfl
@[simp] theorem State.assertSelect_req (s : State) : (s.assertSelect).req = s.req := rfl
@[simp] theorem State.assertSelect_rst (s : State) : (s.assertSelect).rst = s.rst := rfl
@[simp] theorem State.assertSelect_env (s : State) : (s.assertSelect).env = s.env := rfl
@[simp] theorem State.assertSelect_issued (s : State) : (s.assertSelect).issued = s.issued := rfl
@[simp] theorem State.assertSelect_readBuf (s : State) : (s.assertSelect).readBuf = s.readBuf := rfl
@[simp] theorem State.assertSelect_result (s : State) : (s.assertSelect).result = s.result := rfl
@[simp] theorem State.assertSelect_trace (s : State) : (s.assertSelect).trace = .selAssert :: s.trace := rfl

/-! ## releaseSelect -/

@[simp] theorem State.releaseSelect_st (s : State) : (s.releaseSelect).st = s.st := rfl
@[simp] theorem State.releaseSelect_cmdId (s : State) : (s.releaseSelect).cmdId = s.cmdId := rfl
@[simp] theorem State.releaseSelect_txbuf (s : State) : (s.releaseSelect).txbuf = s.txbuf := rfl
@[simp] theorem State.releaseSelect_txLen (s : State) : (s.releaseSelect).txLen = s.txLen := rfl
@[simp] theorem State.releaseSelect_txOff (s : State) : (s.releaseSelect).txOff = s.txOff := rfl
@[simp] theorem State.releaseSelect_fType (s : State) : (s.releaseSelect).fType = s.fType := rfl
@[simp] theorem State.releaseSelect_fId (s : State) : (s.releaseSelect).fId = s.fId := rfl
@[simp] theorem State.releaseSelect_fSize (s : State) : (s.releaseSelect).fSize = s.fSize := rfl
@[simp] theorem State.releaseSelect_fLen (s : State) : (s.releaseSelect).fLen = s.fLen := rfl
@[simp] theorem State.releaseSelect_fPay (s : State) : (s.releaseSelect).fPay = s.fPay := rfl
@[simp] theorem State.releaseSelect_byteIx (s : State) : (s.releaseSelect).byteIx = s.byteIx := rfl
@[simp] theorem State.releaseSelect_attempts (s : State) : (s.releaseSelect).attempts = s.attempts := rfl
@[simp] theorem State.releaseSelect_tMark (s : State) : (s.releaseSelect).tMark = s.tMark := rfl
@[simp] theorem State.releaseSelect_tRx (s : State) : (s.releaseSelect).tRx = s.tRx := rfl
@[simp] theorem State.releaseSelect_rxbuf (s : State) : (s.releaseSelect).rxbuf = s.rxbuf := rfl
@[simp] theorem State.releaseSelect_rxLen (s : State) : (s.releaseSelect).rxLen = s.rxLen := rfl
@[simp] theorem State.releaseSelect_sel (s : State) : (s.releaseSelect).sel = false := rfl
@[simp] theorem State.releaseSelect_err (s : State) : (s.releaseSelect).err = s.err := rfl
@[simp] theorem State.releaseSelect_cfg (s : State) : (s.releaseSelect).cfg = s.cfg := rfl
@[simp] theorem State.releaseSelect_now (s : State) : (s.releaseSelect).now = s.now := rfl
@[simp] theorem State.releaseSelect_req (s : State) : (s.releaseSelect).req = s.req := rfl
@[simp] theorem State.releaseSelect_rst (s : State) : (s.releaseSelect).rst = s.rst := rfl
@[simp] theorem State.releaseSelect_env (s : State) : (s.releaseSelect).env = s.env := rfl
@[simp] theorem State.releaseSelect_issued (s : State) : (s.releaseSelect).issued = s.issued := rfl
@[simp] theorem State.releaseSelect_readBuf (s : State) : (s.releaseSelect).readBuf = s.readBuf := rfl
@[simp] theorem State.releaseSelect_result (s : State) : (s.releaseSelect).result = s.result := rfl
@[simp] theorem State.releaseSelect_trace (s : State) : (s.releaseSelect).trace = .selRelease :: s.trace := rfl

/-! ## exchange -/

@[simp] theorem State.exchange_st (s : State) (o r : Byte) : (s.exchange o r).st = s.st := rfl
@[simp] theorem State.exchange_cmdId (s : State) (o r : Byte) : (s.exchange o r).cmdId = s.cmdId := rfl
@[simp] theorem State.exchange_txbuf (s : State) (o r : Byte) : (s.exchange o r).txbuf = s.txbuf := rfl
@[simp] theorem State.exchange_txLen (s : State) (o r : Byte) : (s.exchange o r).txLen = s.txLen := rfl
@[simp] theorem State.exchange_txOff (s : State) (o r : Byte) : (s.exchange o r).txOff = s.txOff := rfl
@[simp] theorem State.exchange_fType (s : State) (o r : Byte) : (s.exchange o r).fType = s.fType := rfl
@[simp] theorem State.exchange_fId (s : State) (o r : Byte) : (s.exchange o r).fId = s.fId := rfl
@[simp] theorem State.exchange_fSize (s : State) (o r : Byte) : (s.exchange o r).fSize = s.fSize := rfl
@[simp] theorem State.exchange_fLen (s : State) (o r : Byte) : (s.exchange o r).fLen = s.fLen := rfl
@[simp] theorem State.exchange_fPay (s : State) (o r : Byte) : (s.exchange o r).fPay = s.fPay := rfl
@[simp] theorem State.exchange_byteIx (s : State) (o r : Byte) : (s.exchange o r).byteIx = s.byteIx := rfl
@[simp] theorem State.exchange_attempts (s : State) (o r : Byte) : (s.exchange o r).attempts = s.attempts := rfl
@[simp] theorem State.exchange_tMark (s : State) (o r : Byte) : (s.exchange o r).tMark = s.tMark := rfl
@[simp] theorem State.exchange_tRx (s : State) (o r : Byte) : (s.exchange o r).tRx = s.tRx := rfl
@[simp] theorem State.exchange_rxbuf (s : State) (o r : Byte) : (s.exchange o r).rxbuf = s.rxbuf := rfl
@[simp] theorem State.exchange_rxLen (s : State) (o r : Byte) : (s.exchange o r).rxLen = s.rxLen := rfl
@[simp] theorem State.exchange_sel (s : State) (o r : Byte) : (s.exchange o r).sel = s.sel := rfl
@[simp] theorem State.exchange_err (s : State) (o r : Byte) : (s.exchange o r).err = s.err := rfl
@[simp] theorem State.exchange_cfg (s : State) (o r : Byte) : (s.exchange o r).cfg = s.cfg := rfl
@[simp] theorem State.exchange_now (s : State) (o r : Byte) : (s.exchange o r).now = s.now := rfl
@[simp] theorem State.exchange_req (s : State) (o r : Byte) : (s.exchange o r).req = s.req := rfl
@[simp] theorem State.exchange_rst (s : State) (o r : Byte) : (s.exchange o r).rst = s.rst := rfl
@[simp] theorem State.exchange_env (s : State) (o r : Byte) : (s.exchange o r).env = s.env := rfl
@[simp] theorem State.exchange_issued (s : State) (o r : Byte) : (s.exchange o r).issued = s.issued := rfl
@[simp] theorem State.exchange_readBuf (s : State) (o r : Byte) : (s.exchange o r).readBuf = s.readBuf := rfl
@[simp] theorem State.exchange_result (s : State) (o r : Byte) : (s.exchange o r).result = s.result := rfl
@[simp] theorem State.exchange_trace (s : State) (o r : Byte) : (s.exchange o r).trace = .xfer o r :: s.trace := rfl

/-! ## takeByte -/

@[simp] theorem State.takeByte_st (s : State) : (s.takeByte).st = s.st := rfl
@[simp] theorem State.takeByte_cmdId (s : State) : (s.takeByte).cmdId = s.cmdId := rfl
@[simp] theorem State.takeByte_txbuf (s : State) : (s.takeByte).txbuf = s.txbuf := rfl
@[simp] theorem State.takeByte_txLen (s : State) : (s.takeByte).txLen = s.txLen := rfl
@[simp] theorem State.takeByte_txOff (s : State) : (s.takeByte).txOff = s.txOff := rfl
@[simp] theorem State.takeByte_fType (s : State) : (s.takeByte).fType = s.fType := rfl
@[simp] theorem State.takeByte_fId (s : State) : (s.takeByte).fId = s.fId := rfl
@[simp] theorem State.takeByte_fSize (s : State) : (s.takeByte).fSize = s.fSize := rfl
@[simp] theorem State.takeByte_fLen (s : State) : (s.takeByte).fLen = s.fLen := rfl
@[simp] theorem State.takeByte_fPay (s : State) : (s.takeByte).fPay = s.fPay := rfl
@[simp] theorem State.takeByte_byteIx (s : State) : (s.takeByte).byteIx = s.byteIx := rfl
@[simp] theorem State.takeByte_attempts (s : State) : (s.takeByte).attempts = s.attempts := rfl
@[simp] theorem State.takeByte_tMark (s : State) : (s.takeByte).tMark = s.tMark := rfl
@[simp] theorem State.takeByte_tRx (s : State) : (s.takeByte).tRx = s.tRx := rfl
@[simp] theorem State.takeByte_rxbuf (s : State) : (s.takeByte).rxbuf = s.rxbuf := rfl
@[simp] theorem State.takeByte_rxLen (s : State) : (s.takeByte).rxLen = s.rxLen := rfl
@[simp] theorem State.takeByte_sel (s : State) : (s.takeByte).sel = s.sel := rfl
@[simp] theorem State.takeByte_err (s : State) : (s.takeByte).err = s.err := rfl
@[simp] theorem State.takeByte_cfg (s : State) : (s.takeByte).cfg = s.cfg := rfl
@[simp] theorem State.takeByte_now (s : State) : (s.takeByte).now = s.now := rfl
@[simp] theorem State.takeByte_req (s : State) : (s.takeByte).req = s.req := rfl
@[simp] theorem State.takeByte_rst (s : State) : (s.takeByte).rst = s.rst := rfl
@[simp] theorem State.takeByte_env (s : State) : (s.takeByte).env = s.env.popByte := rfl
@[simp] theorem State.takeByte_issued (s : State) : (s.takeByte).issued = s.issued := rfl
@[simp] theorem State.takeByte_readBuf (s : State) : (s.takeByte).readBuf = s.readBuf := rfl
@[simp] theorem State.takeByte_result (s : State) : (s.takeByte).result = s.result := rfl
@[simp] theorem State.takeByte_trace (s : State) : (s.takeByte).trace = s.trace := rfl

/-! ## transfer -/

@[simp] theorem State.transfer_st (s : State) (o : Byte) : (s.transfer o).st = s.st := rfl
@[simp] theorem State.transfer_cmdId (s : State) (o : Byte) : (s.transfer o).cmdId = s.cmdId := rfl
@[simp] theorem State.transfer_txbuf (s : State) (o : Byte) : (s.transfer o).txbuf = s.txbuf := rfl
@[simp] theorem State.transfer_txLen (s : State) (o : Byte) : (s.transfer o).txLen = s.txLen := rfl
@[simp] theorem State.transfer_txOff (s : State) (o : Byte) : (s.transfer o).txOff = s.txOff := rfl
@[simp] theorem State.transfer_fType (s : State) (o : Byte) : (s.transfer o).fType = s.fType := rfl
@[simp] theorem State.transfer_fId (s : State) (o : Byte) : (s.transfer o).fId = s.fId := rfl
@[simp] theorem State.transfer_fSize (s : State) (o : Byte) : (s.transfer o).fSize = s.fSize := rfl
@[simp] theorem State.transfer_fLen (s : State) (o : Byte) : (s.transfer o).fLen = s.fLen := rfl
@[simp] theorem State.transfer_fPay (s : State) (o : Byte) : (s.transfer o).fPay = s.fPay := rfl
@[simp] theorem State.transfer_byteIx (s : State) (o : Byte) : (s.transfer o).byteIx = s.byteIx := rfl
@[simp] theorem State.transfer_attempts (s : State) (o : Byte) : (s.transfer o).attempts = s.attempts := rfl
@[simp] theorem State.transfer_tMark (s : State) (o : Byte) : (s.transfer o).tMark = s.tMark := rfl
@[simp] theorem State.transfer_tRx (s : State) (o : Byte) : (s.transfer o).tRx = s.tRx := rfl
@[simp] theorem State.transfer_rxbuf (s : State) (o : Byte) : (s.transfer o).rxbuf = s.rxbuf := rfl
@[simp] theorem State.transfer_rxLen (s : State) (o : Byte) : (s.transfer o).rxLen = s.rxLen := rfl
@[simp] theorem State.transfer_sel (s : State) (o : Byte) : (s.transfer o).sel = s.sel := rfl
@[simp] theorem State.transfer_err (s : State) (o : Byte) : (s.transfer o).err = s.err := rfl
@[simp] theorem State.transfer_cfg (s : State) (o : Byte) : (s.transfer o).cfg = s.cfg := rfl
@[simp] theorem State.transfer_now (s : State) (o : Byte) : (s.transfer o).now = s.now := rfl
@[simp] theorem State.transfer_req (s : State) (o : Byte) : (s.transfer o).req = s.req := rfl
@[simp] theorem State.transfer_rst (s : State) (o : Byte) : (s.transfer o).rst = s.rst := rfl
@[simp] theorem State.transfer_env (s : State) (o : Byte) : (s.transfer o).env = s.env.popByte := rfl
@[simp] theorem State.transfer_issued (s : State) (o : Byte) : (s.transfer o).issued = s.issued := rfl
@[simp] theorem State.transfer_readBuf (s : State) (o : Byte) : (s.transfer o).readBuf = s.readBuf := rfl
@[simp] theorem State.transfer_result (s : State) (o : Byte) : (s.transfer o).result = s.result := rfl
@[simp] theorem State.transfer_trace (s : State) (o : Byte) : (s.transfer o).trace = .xfer o s.env.peerByte :: s.trace := rfl

/-! ## readOne -/

@[simp] theorem State.readOne_st (s : State) : (s.readOne).st = s.st := rfl
@[simp] theorem State.readOne_cmdId (s : State) : (s.readOne).cmdId = s.cmdId := rfl
@[simp] theorem State.readOne_txbuf (s : State) : (s.readOne).txbuf = s.txbuf := rfl
@[simp] theorem State.readOne_txLen (s : State) : (s.readOne).txLen = s.txLen := rfl
@[simp] theorem State.readOne_txOff (s : State) : (s.readOne).txOff = s.txOff := rfl
@[simp] theorem State.readOne_fType (s : State) : (s.readOne).fType = s.fType := rfl
@[simp] theorem State.readOne_fId (s : State) : (s.readOne).fId = s.fId := rfl
@[simp] theorem State.readOne_fSize (s : State) : (s.readOne).fSize = s.fSize := rfl
@[simp] theorem State.readOne_fLen (s : State) : (s.readOne).fLen = s.fLen := rfl
@[simp] theorem State.readOne_fPay (s : State) : (s.readOne).fPay = s.fPay := rfl
@[simp] theorem State.readOne_byteIx (s : State) : (s.readOne).byteIx = s.byteIx := rfl
@[simp] theorem State.readOne_attempts (s : State) : (s.readOne).attempts = s.attempts := rfl
@[simp] theorem State.readOne_tMark (s : State) : (s.readOne).tMark = s.tMark := rfl
@[simp] theorem State.readOne_tRx (s : State) : (s.readOne).tRx = s.tRx := rfl
@[simp] theorem State.readOne_rxbuf (s : State) : (s.readOne).rxbuf = s.rxbuf := rfl
@[simp] theorem State.readOne_rxLen (s : State) : (s.readOne).rxLen = s.rxLen := rfl
@[simp] theorem State.readOne_sel (s : State) : (s.readOne).sel = s.sel := rfl
@[simp] theorem State.readOne_err (s : State) : (s.readOne).err = s.err := rfl
@[simp] theorem State.readOne_cfg (s : State) : (s.readOne).cfg = s.cfg := rfl
@[simp] theorem State.readOne_now (s : State) : (s.readOne).now = s.now := rfl
@[simp] theorem State.readOne_req (s : State) : (s.readOne).req = s.req := rfl
@[simp] theorem State.readOne_rst (s : State) : (s.readOne).rst = s.rst := rfl
@[simp] theorem State.readOne_env (s : State) : (s.readOne).env = s.env.popByte := rfl
@[simp] theorem State.readOne_issued (s : State) : (s.readOne).issued = s.issued := rfl
@[simp] theorem State.readOne_readBuf (s : State) : (s.readOne).readBuf = s.readBuf ++ [s.env.peerByte] := rfl
@[simp] theorem State.readOne_result (s : State) : (s.readOne).result = s.result := rfl
@[simp] theorem State.readOne_trace (s : State) : (s.readOne).trace = .xfer Config.filler s.env.peerByte :: s.trace := rfl

/-! ## finishRead -/

@[simp] theorem State.finishRead_st (s : State) : (s.finishRead).st = s.st := rfl
@[simp] theorem State.finishRead_cmdId (s : State) : (s.finishRead).cmdId = s.cmdId := rfl
@[simp] theorem State.finishRead_txbuf (s : State) : (s.finishRead).txbuf = s.txbuf := rfl
@[simp] theorem State.finishRead_txLen (s : State) : (s.finishRead).txLen = s.txLen := rfl
@[simp] theorem State.finishRead_txOff (s : State) : (s.finishRead).txOff = s.txOff := rfl
@[simp] theorem State.finishRead_fType (s : State) : (s.finishRead).fType = s.fType := rfl
@[simp] theorem State.finishRead_fId (s : State) : (s.finishRead).fId = s.fId := rfl
@[simp] theorem State.finishRead_fSize (s : State) : (s.finishRead).fSize = s.fSize := rfl
@[simp] theorem State.finishRead_fLen (s : State) : (s.finishRead).fLen = s.fLen := rfl
@[simp] theorem State.finishRead_fPay (s : State) : (s.finishRead).fPay = s.fPay := rfl
@[simp] theorem State.finishRead_byteIx (s : State) : (s.finishRead).byteIx = s.byteIx := rfl
@[simp] theorem State.finishRead_attempts (s : State) : (s.finishRead).attempts = s.attempts := rfl
@[simp] theorem State.finishRead_tMark (s : State) : (s.finishRead).tMark = s.tMark := rfl
@[simp] theorem State.finishRead_tRx (s : State) : (s.finishRead).tRx = s.tRx := rfl
@[simp] theorem State.finishRead_rxbuf (s : State) : (s.finishRead).rxbuf = s.rxbuf := rfl
@[simp] theorem State.finishRead_rxLen (s : State) : (s.finishRead).rxLen = s.rxLen := rfl
@[simp] theorem State.finishRead_sel (s : State) : (s.finishRead).sel = s.sel := rfl
@[simp] theorem State.finishRead_err (s : State) : (s.finishRead).err = s.err := rfl
@[simp] theorem State.finishRead_cfg (s : State) : (s.finishRead).cfg = s.cfg := rfl
@[simp] theorem State.finishRead_now (s : State) : (s.finishRead).now = s.now := rfl
@[simp] theorem State.finishRead_req (s : State) : (s.finishRead).req = s.req := rfl
@[simp] theorem State.finishRead_rst (s : State) : (s.finishRead).rst = s.rst := rfl
@[simp] theorem State.finishRead_env (s : State) : (s.finishRead).env = s.env := rfl
@[simp] theorem State.finishRead_issued (s : State) : (s.finishRead).issued = s.issued := rfl
@[simp] theorem State.finishRead_readBuf (s : State) : (s.finishRead).readBuf = [] := rfl
@[simp] theorem State.finishRead_result (s : State) : (s.finishRead).result = .bytes s.readBuf := rfl
@[simp] theorem State.finishRead_trace (s : State) : (s.finishRead).trace = s.trace := rfl

/-! ## sampleReady -/

@[simp] theorem State.sampleReady_st (s : State) : (s.sampleReady).st = s.st := rfl
@[simp] theorem State.sampleReady_cmdId (s : State) : (s.sampleReady).cmdId = s.cmdId := rfl
@[simp] theorem State.sampleReady_txbuf (s : State) : (s.sampleReady).txbuf = s.txbuf := rfl
@[simp] theorem State.sampleReady_txLen (s : State) : (s.sampleReady).txLen = s.txLen := rfl
@[simp] theorem State.sampleReady_txOff (s : State) : (s.sampleReady).txOff = s.txOff := rfl
@[simp] theorem State.sampleReady_fType (s : State) : (s.sampleReady).fType = s.fType := rfl
@[simp] theorem State.sampleReady_fId (s : State) : (s.sampleReady).fId = s.fId := rfl
@[simp] theorem State.sampleReady_fSize (s : State) : (s.sampleReady).fSize = s.fSize := rfl
@[simp] theorem State.sampleReady_fLen (s : State) : (s.sampleReady).fLen = s.fLen := rfl
@[simp] theorem State.sampleReady_fPay (s : State) : (s.sampleReady).fPay = s.fPay := rfl
@[simp] theorem State.sampleReady_byteIx (s : State) : (s.sampleReady).byteIx = s.byteIx := rfl
@[simp] theorem State.sampleReady_attempts (s : State) : (s.sampleReady).attempts = s.attempts := rfl
@[simp] theorem State.sampleReady_tMark (s : State) : (s.sampleReady).tMark = s.tMark := rfl
@[simp] theorem State.sampleReady_tRx (s : State) : (s.sampleReady).tRx = s.tRx := rfl
@[simp] theorem State.sampleReady_rxbuf (s : State) : (s.sampleReady).rxbuf = s.rxbuf := rfl
@[simp] theorem State.sampleReady_rxLen (s : State) : (s.sampleReady).rxLen = s.rxLen := rfl
@[simp] theorem State.sampleReady_sel (s : State) : (s.sampleReady).sel = s.sel := rfl
@[simp] theorem State.sampleReady_err (s : State) : (s.sampleReady).err = s.err := rfl
@[simp] theorem State.sampleReady_cfg (s : State) : (s.sampleReady).cfg = s.cfg := rfl
@[simp] theorem State.sampleReady_now (s : State) : (s.sampleReady).now = s.now := rfl
@[simp] theorem State.sampleReady_req (s : State) : (s.sampleReady).req = s.req := rfl
@[simp] theorem State.sampleReady_rst (s : State) : (s.sampleReady).rst = s.rst := rfl
@[simp] theorem State.sampleReady_env (s : State) : (s.sampleReady).env = s.env.popLevel := rfl
@[simp] theorem State.sampleReady_issued (s : State) : (s.sampleReady).issued = s.issued := rfl
@[simp] theorem State.sampleReady_readBuf (s : State) : (s.sampleReady).readBuf = s.readBuf := rfl
@[simp] theorem State.sampleReady_result (s : State) : (s.sampleReady).result = s.result := rfl
@[simp] theorem State.sampleReady_trace (s : State) : (s.sampleReady).trace = .ready s.env.readyLevel :: s.trace := rfl

/-! ## fail -/

@[simp] theorem State.fail_st (s : State) (e : Err) (b : Bool) : (s.fail e b).st = if b then .failRelease else .done := rfl
@[simp] theorem State.fail_cmdId (s : State) (e : Err) (b : Bool) : (s.fail e b).cmdId = s.cmdId := rfl
@[simp] theorem State.fail_txbuf (s : State) (e : Err) (b : Bool) : (s.fail e b).txbuf = s.txbuf := rfl
@[simp] theorem State.fail_txLen (s : State) (e : Err) (b : Bool) : (s.fail e b).txLen = s.txLen := rfl
@[simp] theorem State.fail_txOff (s : State) (e : Err) (b : Bool) : (s.fail e b).txOff = s.txOff := rfl
@[simp] theorem State.fail_fType (s : State) (e : Err) (b : Bool) : (s.fail e b).fType = s.fType := rfl
@[simp] theorem State.fail_fId (s : State) (e : Err) (b : Bool) : (s.fail e b).fId = s.fId := rfl
@[simp] theorem State.fail_fSize (s : State) (e : Err) (b : Bool) : (s.fail e b).fSize = s.fSize := rfl
@[simp] theorem State.fail_fLen (s : State) (e : Err) (b : Bool) : (s.fail e b).fLen = s.fLen := rfl
@[simp] theorem State.fail_fPay (s : State) (e : Err) (b : Bool) : (s.fail e b).fPay = s.fPay := rfl
@[simp] theorem State.fail_byteIx (s : State) (e : Err) (b : Bool) : (s.fail e b).byteIx = s.byteIx := rfl
@[simp] theorem State.fail_attempts (s : State) (e : Err) (b : Bool) : (s.fail e b).attempts = s.attempts := rfl
@[simp] theorem State.fail_tMark (s : State) (e : Err) (b : Bool) : (s.fail e b).tMark = s.tMark := rfl
@[simp] theorem State.fail_tRx (s : State) (e : Err) (b : Bool) : (s.fail e b).tRx = s.tRx := rfl
@[simp] theorem State.fail_rxbuf (s : State) (e : Err) (b : Bool) : (s.fail e b).rxbuf = s.rxbuf := rfl
@[simp] theorem State.fail_rxLen (s : State) (e : Err) (b : Bool) : (s.fail e b).rxLen = s.rxLen := rfl
@[simp] theorem State.fail_sel (s : State) (e : Err) (b : Bool) : (s.fail e b).sel = s.sel := rfl
@[simp] theorem State.fail_err (s : State) (e : Err) (b : Bool) : (s.fail e b).err = e := rfl
@[simp] theorem State.fail_cfg (s : State) (e : Err) (b : Bool) : (s.fail e b).cfg = s.cfg := rfl
@[simp] theorem State.fail_now (s : State) (e : Err) (b : Bool) : (s.fail e b).now = s.now := rfl
@[simp] theorem State.fail_req (s : State) (e : Err) (b : Bool) : (s.fail e b).req = s.req := rfl
@[simp] theorem State.fail_rst (s : State) (e : Err) (b : Bool) : (s.fail e b).rst = s.rst := rfl
@[simp] theorem State.fail_env (s : State) (e : Err) (b : Bool) : (s.fail e b).env = s.env := rfl
@[simp] theorem State.fail_issued (s : State) (e : Err) (b : Bool) : (s.fail e b).issued = s.issued := rfl
@[simp] theorem State.fail_readBuf (s : State) (e : Err) (b : Bool) : (s.fail e b).readBuf = s.readBuf := rfl
@[simp] theorem State.fail_result (s : State) (e : Err) (b : Bool) : (s.fail e b).result = s.result := rfl
@[simp] theorem State.fail_trace (s : State) (e : Err) (b : Bool) : (s.fail e b).trace = s.trace := rfl

/-! ## begun -/

@[simp] theorem State.begun_st (s : State) : (s.begun).st = s.st := rfl
@[simp] theorem State.begun_cmdId (s : State) : (s.begun).cmdId = s.cmdId := rfl
@[simp] theorem State.begun_txbuf (s : State) : (s.begun).txbuf = s.txbuf := rfl
@[simp] theorem State.begun_txLen (s : State) : (s.begun).txLen = s.txLen := rfl
@[simp] theorem State.begun_txOff (s : State) : (s.begun).txOff = s.txOff := rfl
@[simp] theorem State.begun_fType (s : State) : (s.begun).fType = s.fType := rfl
@[simp] theorem State.begun_fId (s : State) : (s.begun).fId = s.fId := rfl
@[simp] theorem State.begun_fSize (s : State) : (s.begun).fSize = s.fSize := rfl
@[simp] theorem State.begun_fLen (s : State) : (s.begun).fLen = s.fLen := rfl
@[simp] theorem State.begun_fPay (s : State) : (s.begun).fPay = s.fPay := rfl
@[simp] theorem State.begun_byteIx (s : State) : (s.begun).byteIx = s.byteIx := rfl
@[simp] theorem State.begun_attempts (s : State) : (s.begun).attempts = s.attempts := rfl
@[simp] theorem State.begun_tMark (s : State) : (s.begun).tMark = s.tMark := rfl
@[simp] theorem State.begun_tRx (s : State) : (s.begun).tRx = s.tRx := rfl
@[simp] theorem State.begun_rxbuf (s : State) : (s.begun).rxbuf = s.rxbuf := rfl
@[simp] theorem State.begun_rxLen (s : State) : (s.begun).rxLen = s.rxLen := rfl
@[simp] theorem State.begun_sel (s : State) : (s.begun).sel = s.sel := rfl
@[simp] theorem State.begun_err (s : State) : (s.begun).err = s.err := rfl
@[simp] theorem State.begun_cfg (s : State) : (s.begun).cfg = s.cfg := rfl
@[simp] theorem State.begun_now (s : State) : (s.begun).now = s.now := rfl
@[simp] theorem State.begun_req (s : State) : (s.begun).req = s.req := rfl
@[simp] theorem State.begun_rst (s : State) : (s.begun).rst = s.rst := rfl
@[simp] theorem State.begun_env (s : State) : (s.begun).env = s.env := rfl
@[simp] theorem State.begun_issued (s : State) : (s.begun).issued = none := rfl
@[simp] theorem State.begun_readBuf (s : State) : (s.begun).readBuf = s.readBuf := rfl
@[simp] theorem State.begun_result (s : State) : (s.begun).result = (codecResult s.req).getD s.result := rfl
@[simp] theorem State.begun_trace (s : State) : (s.begun).trace = s.trace := rfl

/-! ## nextInputs -/

@[simp] theorem State.nextInputs_st (s : State) : (s.nextInputs).st = s.st := rfl
@[simp] theorem State.nextInputs_cmdId (s : State) : (s.nextInputs).cmdId = s.cmdId := rfl
@[simp] theorem State.nextInputs_txbuf (s : State) : (s.nextInputs).txbuf = s.txbuf := rfl
@[simp] theorem State.nextInputs_txLen (s : State) : (s.nextInputs).txLen = s.txLen := rfl
@[simp] theorem State.nextInputs_txOff (s : State) : (s.nextInputs).txOff = s.txOff := rfl
@[simp] theorem State.nextInputs_fType (s : State) : (s.nextInputs).fType = s.fType := rfl
@[simp] theorem State.nextInputs_fId (s : State) : (s.nextInputs).fId = s.fId := rfl
@[simp] theorem State.nextInputs_fSize (s : State) : (s.nextInputs).fSize = s.fSize := rfl
@[simp] theorem State.nextInputs_fLen (s : State) : (s.nextInputs).fLen = s.fLen := rfl
@[simp] theorem State.nextInputs_fPay (s : State) : (s.nextInputs).fPay = s.fPay := rfl
@[simp] theorem State.nextInputs_byteIx (s : State) : (s.nextInputs).byteIx = s.byteIx := rfl
@[simp] theorem State.nextInputs_attempts (s : State) : (s.nextInputs).attempts = s.attempts := rfl
@[simp] theorem State.nextInputs_tMark (s : State) : (s.nextInputs).tMark = s.tMark := rfl
@[simp] theorem State.nextInputs_tRx (s : State) : (s.nextInputs).tRx = s.tRx := rfl
@[simp] theorem State.nextInputs_rxbuf (s : State) : (s.nextInputs).rxbuf = s.rxbuf := rfl
@[simp] theorem State.nextInputs_rxLen (s : State) : (s.nextInputs).rxLen = s.rxLen := rfl
@[simp] theorem State.nextInputs_sel (s : State) : (s.nextInputs).sel = s.sel := rfl
@[simp] theorem State.nextInputs_err (s : State) : (s.nextInputs).err = s.err := rfl
@[simp] theorem State.nextInputs_cfg (s : State) : (s.nextInputs).cfg = s.cfg := rfl
@[simp] theorem State.nextInputs_now (s : State) : (s.nextInputs).now = s.now + s.env.stepInput.advance := rfl
@[simp] theorem State.nextInputs_req (s : State) : (s.nextInputs).req = s.env.stepInput.req := rfl
@[simp] theorem State.nextInputs_rst (s : State) : (s.nextInputs).rst = s.env.stepInput.reset := rfl
@[simp] theorem State.nextInputs_env (s : State) : (s.nextInputs).env = s.env.popInput := rfl
@[simp] theorem State.nextInputs_issued (s : State) : (s.nextInputs).issued = s.issued := rfl
@[simp] theorem State.nextInputs_readBuf (s : State) : (s.nextInputs).readBuf = s.readBuf := rfl
@[simp] theorem State.nextInputs_result (s : State) : (s.nextInputs).result = s.result := rfl
@[simp] theorem State.nextInputs_trace (s : State) : (s.nextInputs).trace = s.trace := rfl

/-! ## applyReset -/

@[simp] theorem State.applyReset_st (s : State) : (s.applyReset).st = .idle := rfl
@[simp] theorem State.applyReset_cmdId (s : State) : (s.applyReset).cmdId = 0 := rfl
@[simp] theorem State.applyReset_txbuf (s : State) : (s.applyReset).txbuf =
    Memory.ofIndex (Config.resetByte .txbuf s.env.inputsDrawn) s.cfg.txCap := rfl
@[simp] theorem State.applyReset_txLen (s : State) : (s.applyReset).txLen = 0 := rfl
@[simp] theorem State.applyReset_txOff (s : State) : (s.applyReset).txOff = 0 := rfl
@[simp] theorem State.applyReset_fType (s : State) : (s.applyReset).fType = 0 := rfl
@[simp] theorem State.applyReset_fId (s : State) : (s.applyReset).fId = 0 := rfl
@[simp] theorem State.applyReset_fSize (s : State) : (s.applyReset).fSize = 0 := rfl
@[simp] theorem State.applyReset_fLen (s : State) : (s.applyReset).fLen = 0 := rfl
@[simp] theorem State.applyReset_fPay (s : State) : (s.applyReset).fPay =
    Memory.ofIndex (Config.resetByte .fPay s.env.inputsDrawn) Config.maxPayload := by rw [State.applyReset]
@[simp] theorem State.applyReset_byteIx (s : State) : (s.applyReset).byteIx = 0 := rfl
@[simp] theorem State.applyReset_attempts (s : State) : (s.applyReset).attempts = 0 := rfl
@[simp] theorem State.applyReset_tMark (s : State) : (s.applyReset).tMark = 0 := rfl
@[simp] theorem State.applyReset_tRx (s : State) : (s.applyReset).tRx = 0 := rfl
@[simp] theorem State.applyReset_rxbuf (s : State) : (s.applyReset).rxbuf =
    Memory.ofIndex (Config.resetByte .rxbuf s.env.inputsDrawn) s.cfg.rxCap := rfl
@[simp] theorem State.applyReset_rxLen (s : State) : (s.applyReset).rxLen = 0 := rfl
@[simp] theorem State.applyReset_sel (s : State) : (s.applyReset).sel = false := rfl
@[simp] theorem State.applyReset_err (s : State) : (s.applyReset).err = .ok := rfl
@[simp] theorem State.applyReset_cfg (s : State) : (s.applyReset).cfg = s.cfg := rfl
@[simp] theorem State.applyReset_now (s : State) : (s.applyReset).now = s.now := rfl
@[simp] theorem State.applyReset_req (s : State) : (s.applyReset).req = s.req := rfl
@[simp] theorem State.applyReset_rst (s : State) : (s.applyReset).rst = s.rst := rfl
@[simp] theorem State.applyReset_env (s : State) : (s.applyReset).env = s.env := rfl
@[simp] theorem State.applyReset_issued (s : State) : (s.applyReset).issued = none := rfl
@[simp] theorem State.applyReset_readBuf (s : State) : (s.applyReset).readBuf = [] := rfl
@[simp] theorem State.applyReset_result (s : State) : (s.applyReset).result = (codecResult s.req).getD s.result := rfl
@[simp] theorem State.applyReset_trace (s : State) : (s.applyReset).trace = s.trace := rfl

/-! ## The values derived from state (R24, R35): no update below writes what they are computed from -/

@[simp] theorem State.goto_chunkLen (s : State) (x : St) : (s.goto x).chunkLen = s.chunkLen := rfl
@[simp] theorem State.goto_more (s : State) (x : St) : (s.goto x).more = s.more := rfl
@[simp] theorem State.goto_contFlag (s : State) (x : St) : (s.goto x).contFlag = s.contFlag := rfl
@[simp] theorem State.assertSelect_chunkLen (s : State) : (s.assertSelect).chunkLen = s.chunkLen := rfl
@[simp] theorem State.assertSelect_more (s : State) : (s.assertSelect).more = s.more := rfl
@[simp] theorem State.assertSelect_contFlag (s : State) : (s.assertSelect).contFlag = s.contFlag := rfl
@[simp] theorem State.releaseSelect_chunkLen (s : State) : (s.releaseSelect).chunkLen = s.chunkLen := rfl
@[simp] theorem State.releaseSelect_more (s : State) : (s.releaseSelect).more = s.more := rfl
@[simp] theorem State.releaseSelect_contFlag (s : State) : (s.releaseSelect).contFlag = s.contFlag := rfl
@[simp] theorem State.exchange_chunkLen (s : State) (o r : Byte) : (s.exchange o r).chunkLen = s.chunkLen := rfl
@[simp] theorem State.exchange_more (s : State) (o r : Byte) : (s.exchange o r).more = s.more := rfl
@[simp] theorem State.exchange_contFlag (s : State) (o r : Byte) : (s.exchange o r).contFlag = s.contFlag := rfl
@[simp] theorem State.takeByte_chunkLen (s : State) : (s.takeByte).chunkLen = s.chunkLen := rfl
@[simp] theorem State.takeByte_more (s : State) : (s.takeByte).more = s.more := rfl
@[simp] theorem State.takeByte_contFlag (s : State) : (s.takeByte).contFlag = s.contFlag := rfl
@[simp] theorem State.transfer_chunkLen (s : State) (o : Byte) : (s.transfer o).chunkLen = s.chunkLen := rfl
@[simp] theorem State.transfer_more (s : State) (o : Byte) : (s.transfer o).more = s.more := rfl
@[simp] theorem State.transfer_contFlag (s : State) (o : Byte) : (s.transfer o).contFlag = s.contFlag := rfl
@[simp] theorem State.sampleReady_chunkLen (s : State) : (s.sampleReady).chunkLen = s.chunkLen := rfl
@[simp] theorem State.sampleReady_more (s : State) : (s.sampleReady).more = s.more := rfl
@[simp] theorem State.sampleReady_contFlag (s : State) : (s.sampleReady).contFlag = s.contFlag := rfl
@[simp] theorem State.fail_chunkLen (s : State) (e : Err) (b : Bool) : (s.fail e b).chunkLen = s.chunkLen := rfl
@[simp] theorem State.fail_more (s : State) (e : Err) (b : Bool) : (s.fail e b).more = s.more := rfl
@[simp] theorem State.fail_contFlag (s : State) (e : Err) (b : Bool) : (s.fail e b).contFlag = s.contFlag := rfl
@[simp] theorem State.begun_chunkLen (s : State) : (s.begun).chunkLen = s.chunkLen := rfl
@[simp] theorem State.begun_more (s : State) : (s.begun).more = s.more := rfl
@[simp] theorem State.begun_contFlag (s : State) : (s.begun).contFlag = s.contFlag := rfl
@[simp] theorem State.nextInputs_chunkLen (s : State) : (s.nextInputs).chunkLen = s.chunkLen := rfl
@[simp] theorem State.nextInputs_more (s : State) : (s.nextInputs).more = s.more := rfl
@[simp] theorem State.nextInputs_contFlag (s : State) : (s.nextInputs).contFlag = s.contFlag := rfl

end Sys2Proof.Machine
end

