-- ==== Sys2Proof/Laws/Ops.lean ====
section
/-! SUPPORT. One lemma per shared operation that says once everything it can do; the provers cite these and unfold
no operation. -/

namespace Sys2Proof.Machine

/-! ## Pure operands -/

/-- The four-byte reading of the no-payload frame is the one in force (D23). -/
@[simp] theorem zeroLenForm_eq : Config.zeroLenForm = .fillerReplacesSize := rfl

/-- The continuation flag alone is bit 7 (R83, R85). -/
theorem contMask_eq : Config.contMask = 0x80 := rfl

/-- `pack_size` with R85's literals. -/
theorem packSize_eq (n : Nat) (cont : Bool) : packSize n cont = (if cont then 0x80 else 0x00) ||| BitVec.ofNat 8 n := rfl

/-- The size byte is its three fields side by side (R80). -/
theorem sizeBits_eq_append (cont : Bool) (unused : BitVec 2) (len : BitVec 5) :
    sizeBits cont unused len = BitVec.ofBool cont ++ unused ++ len := by
  revert cont unused len
  decide

/-- The size byte's fields put back give the byte. -/
theorem sizeBits_fields (b : Byte) : sizeBits (unpackCont b) (sizeUnused b) (sizeLen b) = b := by
  revert b
  decide

theorem sizeLen_sizeBits (cont : Bool) (unused : BitVec 2) (len : BitVec 5) :
    sizeLen (sizeBits cont unused len) = len := by
  revert cont unused len
  decide

theorem sizeUnused_sizeBits (cont : Bool) (unused : BitVec 2) (len : BitVec 5) :
    sizeUnused (sizeBits cont unused len) = unused := by
  revert cont unused len
  decide

/-- The value of the length field. -/
theorem sizeLen_toNat (b : Byte) : (sizeLen b).toNat = unpackLen b := by
  revert b
  decide

/-- A size byte whose unused bits are 0 is a packed one (R84, R85). -/
theorem packSize_of_unused_zero {b : Byte} (h : sizeUnused b = 0) : packSize (unpackLen b) (unpackCont b) = b := by
  revert b
  decide

/-- `pack_size` on a legal length, as its three bit fields. -/
theorem packSize_eq_sizeBits (n : BitVec 5) (cont : Bool) :
    packSize n.toNat cont = sizeBits cont 0 n := by
  revert n cont
  decide

/-- `unpack_len` sees the low five bits only. -/
theorem unpackLen_sizeBits (cont : Bool) (unused : BitVec 2) (len : BitVec 5) :
    unpackLen (sizeBits cont unused len) = len.toNat := by
  revert cont unused len
  decide

/-- `unpack_cont` sees bit 7 only. -/
theorem unpackCont_sizeBits (cont : Bool) (unused : BitVec 2) (len : BitVec 5) :
    unpackCont (sizeBits cont unused len) = cont := by
  revert cont unused len
  decide

theorem unpackLen_lt (b : Byte) : unpackLen b < 32 := by
  revert b
  decide

theorem unpackLen_packSize {n : Nat} (cont : Bool) (h : n ≤ 16) : unpackLen (packSize n cont) = n := by
  have e := packSize_eq_sizeBits (BitVec.ofNat 5 n) cont
  rw [BitVec.toNat_ofNat, Nat.mod_eq_of_lt (by omega)] at e
  rw [e, unpackLen_sizeBits, BitVec.toNat_ofNat, Nat.mod_eq_of_lt (by omega)]

theorem unpackCont_packSize {n : Nat} (cont : Bool) (h : n ≤ 16) : unpackCont (packSize n cont) = cont := by
  have e := packSize_eq_sizeBits (BitVec.ofNat 5 n) cont
  rw [BitVec.toNat_ofNat, Nat.mod_eq_of_lt (by omega)] at e
  rw [e, unpackCont_sizeBits]

/-- `unpack_cont` is bit 7 (R83). -/
theorem unpackCont_eq_bit (b : Byte) : unpackCont b = b.getLsbD 7 := by
  revert b
  decide

/-- The value of an id joined from its two bytes, low byte first (R62). -/
theorem joinId_toNat (lo hi : Byte) : (joinId lo hi).toNat = hi.toNat * 256 + lo.toNat := by
  simp only [joinId, BitVec.toNat_append]
  rw [← Nat.shiftLeft_add_eq_or_of_lt lo.isLt, Nat.shiftLeft_eq]

theorem idLo_toNat (id : Half) : (idLo id).toNat = id.toNat % 256 := by
  simp [idLo, BitVec.extractLsb'_toNat]

theorem idHi_toNat (id : Half) : (idHi id).toNat = id.toNat / 256 := by
  have := id.isLt
  simp only [idHi, BitVec.extractLsb'_toNat, Nat.shiftRight_eq_div_pow]
  omega

@[simp] theorem joinId_idLo_idHi (id : Half) : joinId (idLo id) (idHi id) = id := by
  apply BitVec.eq_of_toNat_eq
  rw [joinId_toNat, idLo_toNat, idHi_toNat]
  omega

@[simp] theorem idLo_joinId (lo hi : Byte) : idLo (joinId lo hi) = lo := by
  apply BitVec.eq_of_toNat_eq
  have := lo.isLt
  rw [idLo_toNat, joinId_toNat]
  omega

@[simp] theorem idHi_joinId (lo hi : Byte) : idHi (joinId lo hi) = hi := by
  apply BitVec.eq_of_toNat_eq
  have := lo.isLt
  rw [idHi_toNat, joinId_toNat]
  omega

/-- The encoder succeeds on the legal lengths only (R110). -/
theorem encodeHeaderFields_of_le {f : HeaderFields} (h : f.len ≤ 16) :
    encodeHeaderFields f = some { typ := f.typ, idLo := idLo f.id, idHi := idHi f.id, size := packSize f.len f.cont } := by
  have : ¬ f.len > Config.maxPayload := Nat.not_lt.mpr h
  simp [encodeHeaderFields, this]

theorem encodeHeaderFields_of_gt {f : HeaderFields} (h : 16 < f.len) : encodeHeaderFields f = none := by
  have : f.len > Config.maxPayload := h
  simp [encodeHeaderFields, this]

/-- A clamped length is at most a frame's payload (R85). -/
theorem clampLen_le (n : Nat) : clampLen n ≤ 16 := Nat.min_le_right _ _

theorem typeClass_response : typeClass 0x20 = .response := by decide

theorem typeClass_eq_response {r : Byte} : typeClass r = .response ↔ r = 0x20 := by
  revert r
  decide

theorem typeClass_eq_sentinel {r : Byte} : typeClass r = .sentinel ↔ r = 0xFE ∨ r = 0xFF := by
  revert r
  decide

theorem typeClass_eq_unexpected {r : Byte} : typeClass r = .unexpected ↔ r ∉ [0x20, 0xFE, 0xFF] := by
  revert r
  decide

/-! ## The chunk a send state works on (R152) -/

theorem State.chunkLen_eq (s : State) : s.chunkLen = min 16 (s.txLen - s.txOff) := rfl

theorem State.chunkLen_le (s : State) : s.chunkLen ≤ 16 := Nat.min_le_left _ _

theorem State.more_eq (s : State) : s.more = decide (s.txOff + s.chunkLen < s.txLen) := rfl

theorem State.more_iff (s : State) : s.more = true ↔ s.txOff + s.chunkLen < s.txLen := by
  simp [State.more_eq]

/-- While more frames follow, the chunk is a whole payload. -/
theorem State.chunkLen_of_more {s : State} (h : s.more = true) : s.chunkLen = 16 := by
  rw [State.more_iff] at h
  rw [State.chunkLen_eq] at *
  omega

theorem inBuffer_iff {cap base n : Nat} : inBuffer cap base n = true ↔ n = 0 ∨ base + n ≤ cap := by
  simp [inBuffer]

/-! ## Delays -/

/-- Everything a delay can do (R136). -/
theorem State.sleepIn_cases (s : State) (d : Delay) (stay : St) :
    (delayTicks s.cfg d ≤ s.now - s.tMark ∧ s.sleepIn d stay = s.goto (delayNext d)) ∨
    (s.now - s.tMark < delayTicks s.cfg d ∧ s.sleepIn d stay = s.goto stay) := by
  by_cases h : s.now - s.tMark ≥ delayTicks s.cfg d
  · exact .inl ⟨h, by simp [State.sleepIn, h]⟩
  · exact .inr ⟨Nat.lt_of_not_le h, by simp [State.sleepIn, h]⟩

/-! ## Entry (R151) -/

/-- A payload that does not fit: the scratch is cleared, the exchange is over. -/
theorem State.enter_of_gt {s : State} {id : Half} {payload : List Byte} (h : s.cfg.txCap < payload.length) :
    s.enter id payload =
      { s with fType := 0, fId := 0, fSize := 0, fLen := 0, fPay := [], rxLen := 0, attempts := 0, txOff := 0,
               byteIx := 0, err := .packetTooLarge, st := .done } := by
  simp [State.enter, State.fail, h]

/-- A payload that fits: the exchange starts. -/
theorem State.enter_of_le {s : State} {id : Half} {payload : List Byte} (h : payload.length ≤ s.cfg.txCap) :
    s.enter id payload =
      { s with fType := 0, fId := 0, fSize := 0, fLen := 0, fPay := [], rxLen := 0, attempts := 0, txOff := 0,
               byteIx := 0, err := .ok, cmdId := id, txbuf := s.txbuf.writeRange 0 payload,
               txLen := payload.length, st := .txAssert } := by
  simp [State.enter, Nat.not_lt.mpr h]

/-- Without an `EXECUTE` on the port the entry step changes nothing. -/
theorem State.entryStep_of_no_execute {s : State} (h : ∀ id payload, s.req ≠ .execute id payload) :
    s.entryStep = s := by
  unfold State.entryStep
  split <;> simp_all

theorem State.entryStep_of_execute {s : State} {id : Half} {payload : List Byte} (h : s.req = .execute id payload) :
    s.entryStep = s.enter id payload := by
  simp [State.entryStep, h]

/-- The FSM reads the request in the two states that are not busy (R33, R165). -/
theorem State.busy_iff (s : State) : s.busy = true ↔ s.st ≠ .idle ∧ s.st ≠ .done := by
  simp [State.busy]

/-! ## Sending -/

/-- The echo 0xFE refuses the attempt (R154). -/
theorem State.takeEcho_notReady (s : State) : s.takeEcho 0xFE = (s.exchange 0x10 0xFE).goto .txNrRelease := rfl

/-- Every other echo accepts it (R154). -/
theorem State.takeEcho_of_ne {s : State} {r : Byte} (h : r ≠ 0xFE) :
    s.takeEcho r = (s.exchange 0x10 r).goto .txIdlo := by
  have : r ≠ Config.sNotReady := h
  simp only [State.takeEcho, this, if_false]
  rfl

/-- The last attempt refused (R180). -/
theorem State.notReady_of_ge {s : State} (h : 25 ≤ s.attempts) :
    s.notReady = { s.releaseSelect with err := .writeTimeout, st := .done } := by
  have : s.attempts ≥ Config.writeAttemptMax := h
  simp [State.notReady, State.fail, this]

/-- An attempt refused with one left (R180). -/
theorem State.notReady_of_lt {s : State} (h : s.attempts < 25) :
    s.notReady = { s.releaseSelect with tMark := s.now, st := .txNrDelay } := by
  have : ¬ s.attempts ≥ Config.writeAttemptMax := Nat.not_le.mpr h
  simp only [State.notReady, this, if_false]

/-- Without payload the filler follows the id (R86 form b). -/
theorem State.sendBody_nil (s : State) (more : Bool) : s.sendBody more [] = s.sendFill := rfl

/-- With payload the size byte and the payload follow it (R86 form a). -/
theorem State.sendBody_of_ne {s : State} {more : Bool} {payload : List Byte} (h : payload ≠ []) :
    s.sendBody more payload =
      payload.foldl (fun t b => t.sendByte payload.length b) (s.sendSize payload.length more) := by
  simp [State.sendBody, h]

/-! ## Receiving -/

/-- 0x20 in the type position (R210). -/
theorem State.takeType_response (s : State) :
    s.takeType 0x20 = { s.exchange 0xFF 0x20 with fType := 0x20, st := .rxIdlo } := rfl

/-- A sentinel in the type position (R210). -/
theorem State.takeType_sentinel {s : State} {r : Byte} (h : r = 0xFE ∨ r = 0xFF) :
    s.takeType r = { s.exchange 0xFF r with fType := r, st := .rxTogRelease } := by
  rcases h with rfl | rfl <;> rfl

/-- Any other byte in the type position (R210, R249). -/
theorem State.takeType_unexpected {s : State} {r : Byte} (h : r ∉ [0x20, 0xFE, 0xFF]) :
    s.takeType r =
      { s.exchange 0xFF r with fType := r, err := .unexpectedMessageType, st := .failRelease } := by
  unfold State.takeType
  rw [typeClass_eq_unexpected.mpr h]
  rfl

theorem State.overflows_iff (s : State) : s.overflows = true ↔ s.cfg.rxCap < s.rxLen + s.fLen := by
  simp [State.overflows]

/-- A frame that does not fit (R215, R222). -/
theorem State.finishFrame_of_gt {s : State} (h : s.cfg.rxCap < s.rxLen + s.fLen) :
    s.finishFrame = { s with err := .responseBufferOverflow, st := .failRelease } := by
  simp [State.finishFrame, (State.overflows_iff s).mpr h, State.fail]

/-- A frame that fits (R215). -/
theorem State.finishFrame_of_le {s : State} (h : s.rxLen + s.fLen ≤ s.cfg.rxCap) : s.finishFrame = s.append := by
  have : ¬ s.overflows = true := fun e => Nat.not_lt.mpr h ((State.overflows_iff s).mp e)
  simp [State.finishFrame, this]

/-! ## READ_BYTES -/

/-- One transfer of a `READ_BYTES` (R132, R133). -/
theorem State.readOne_eq (s : State) :
    s.readOne = { s with env := s.env.popByte, trace := .xfer 0xFF s.env.peerByte :: s.trace,
                         readBuf := s.readBuf ++ [s.env.peerByte] } := rfl

/-- Without a transfer left the buffer is the answer (R133). -/
theorem State.readStep_zero (s : State) : s.readStep 0 = s.finishRead := rfl

/-- A step with a transfer left (R133, D26): one transfer, then the answer, or the rest of the code before the block. -/
theorem State.readStep_succ (n : Nat) (s : State) :
    s.readStep (n + 1) =
      if n = 0 then s.readOne.finishRead else { s.readOne with issued := some (encode (.readBytes n)) } := by
  cases n <;> rfl

theorem countReads_readCodes (n : Nat) : countReads (readCodes n) = some n := by
  induction n with
  | zero => rfl
  | succ n ih => simp [readCodes, countReads, ih]

/-- The rest of a `READ_BYTES` is the `READ_BYTES` of the transfers left (R94). -/
theorem decode_readCodes (n : Nat) : decode ⟨.pseudo, readCodes n⟩ = .ok (.readBytes n) := by
  simp [decode, decodePseudo, countReads_readCodes]

/-! ## The codec on the host port -/

theorem codecResult_encode_of_le {typ : Byte} {id : Half} {length : Byte} {cont : Bool} (h : length.toNat ≤ 16) :
    codecResult (.encodeHeader typ id length cont) =
      some (.header { typ := typ, idLo := idLo id, idHi := idHi id, size := packSize length.toNat cont }) := by
  simp [codecResult, encodeHeaderFields_of_le (f := ⟨typ, id, length.toNat, cont⟩) h]

theorem codecResult_encode_of_gt {typ : Byte} {id : Half} {length : Byte} {cont : Bool} (h : 16 < length.toNat) :
    codecResult (.encodeHeader typ id length cont) = some .encFail := by
  simp [codecResult, encodeHeaderFields_of_gt (f := ⟨typ, id, length.toNat, cont⟩) h]

theorem codecResult_decode (h : Header) : codecResult (.decodeHeader h) = some (.fields (decodeHeaderBytes h)) := rfl

end Sys2Proof.Machine
end

