-- ==== Sys2Proof/Laws/Frames.lean ====
section
/-! SUPPORT. What a run of transfers is, in the terms of Safety: the peer's answers taken in order, their events, and
the payload loops of the send and receive states in closed form. -/

namespace Sys2Proof.Safety

open Sys2Proof.Machine

/-! ## Answers and their events -/

@[simp] theorem answers_length (n : Nat) (e : Env) : (answers n e).length = n := by
  induction n generalizing e with
  | zero => rfl
  | succ n ih => simp [answers, ih]

/-- Listed answers come first, in order. -/
theorem answers_of_listed (listed rest : List Byte) (e : Env) (h : e.bytes = listed ++ rest) :
    answers listed.length e = listed ∧ (afterAnswers listed.length e).bytes = rest := by
  induction listed generalizing e with
  | nil => exact ⟨rfl, h⟩
  | cons b bs ih =>
    have hb : e.peerByte = b := by simp [Env.peerByte, h]
    have ht : e.popByte.bytes = bs ++ rest := by simp [Env.popByte, h]
    have := ih e.popByte ht
    exact ⟨by simp [answers, hb, this.1], this.2⟩

theorem answers_add (m n : Nat) (e : Env) : answers (m + n) e = answers m e ++ answers n (afterAnswers m e) := by
  induction m generalizing e with
  | zero => simp [answers, afterAnswers]
  | succ m ih => rw [Nat.succ_add]; simp [answers, afterAnswers, ih]

theorem afterAnswers_add (m n : Nat) (e : Env) : afterAnswers (m + n) e = afterAnswers n (afterAnswers m e) := by
  induction m generalizing e with
  | zero => simp [afterAnswers]
  | succ m ih => rw [Nat.succ_add]; simp [afterAnswers, ih]

@[simp] theorem afterAnswers_inputs (n : Nat) (e : Env) : (afterAnswers n e).inputs = e.inputs := by
  induction n generalizing e with
  | zero => rfl
  | succ n ih => simp [afterAnswers, ih, Env.popByte]

@[simp] theorem afterAnswers_levels (n : Nat) (e : Env) : (afterAnswers n e).levels = e.levels := by
  induction n generalizing e with
  | zero => rfl
  | succ n ih => simp [afterAnswers, ih, Env.popByte]

@[simp] theorem transfers_nil (ins : List Byte) : transfers [] ins = [] := rfl

@[simp] theorem transfers_cons (o i : Byte) (outs ins : List Byte) :
    transfers (o :: outs) (i :: ins) = transfers outs ins ++ [.xfer o i] := by
  simp [transfers]

/-! ## Repeated transfers -/

/-- The payload loop of the send states in closed form (R158). -/
theorem foldl_sendByte_eq (n : Nat) (bs : List Byte) (s : State) :
    bs.foldl (fun t b => t.sendByte n b) s =
      { s with env := afterAnswers bs.length s.env,
               trace := transfers bs (answers bs.length s.env) ++ s.trace,
               byteIx := s.byteIx + bs.length,
               st := if bs = [] then s.st else if s.byteIx + bs.length = n then .txRelease else .txPayload } := by
  induction bs generalizing s with
  | nil => rfl
  | cons b bs ih =>
    have hlen : s.byteIx + 1 + bs.length = s.byteIx + (bs.length + 1) := by omega
    rw [List.foldl_cons, ih]
    by_cases hbs : bs = []
    · subst hbs
      simp [State.sendByte, State.transfer, State.takeByte, State.exchange, answers, afterAnswers]
    · simp [State.sendByte, State.transfer, State.takeByte, State.exchange, answers, afterAnswers, hbs, hlen]

/-- The payload loop of the receive states in closed form (R214). -/
theorem foldl_takePayload_eq (bs : List Byte) (s : State) :
    bs.foldl (fun t r => t.takePayload r) s =
      { s with trace := transfers (List.replicate bs.length Config.filler) bs ++ s.trace,
               fPay := s.fPay.writeRange s.byteIx bs,
               byteIx := s.byteIx + bs.length,
               st := if bs = [] then s.st else if s.byteIx + bs.length = s.fLen then .rxAppend else .rxPayload } := by
  induction bs generalizing s with
  | nil => rfl
  | cons b bs ih =>
    have hlen : s.byteIx + 1 + bs.length = s.byteIx + (bs.length + 1) := by omega
    rw [List.foldl_cons, ih]
    by_cases hbs : bs = []
    · subst hbs
      simp [State.takePayload, State.exchange, Memory.writeRange]
    · simp [State.takePayload, State.exchange, Memory.writeRange, List.replicate_succ, hbs, hlen]

/-! ## Bounds of a buffer -/

@[simp] theorem inside_nil (cap : Nat) : inside [] cap = true := rfl

theorem inside_iff {m : Memory} {cap : Nat} : inside m cap = true ↔ ∀ c ∈ m, c.1 < cap := by
  simp [inside]

theorem inside_write {m : Memory} {cap a : Nat} {b : Byte} (h : inside m cap = true) (ha : a < cap) :
    inside (m.write a b) cap = true := by
  rw [inside_iff] at *
  intro c hc
  rcases Memory.mem_write hc with hm | rfl
  · exact h c hm
  · exact ha

theorem inside_writeRange {m : Memory} {cap base : Nat} {bs : List Byte} (h : inside m cap = true)
    (hb : bs = [] ∨ base + bs.length ≤ cap) : inside (m.writeRange base bs) cap = true := by
  rw [inside_iff] at *
  exact Memory.mem_writeRange h hb

theorem inside_ofIndex (f : Nat → Byte) (n : Nat) : inside (Memory.ofIndex f n) n = true :=
  inside_iff.mpr Memory.mem_ofIndex

end Sys2Proof.Safety
end

