-- ==== Sys2Proof/Laws/PerInstr.lean ====
section
/-! SUPPORT. Statements about each instruction as syntax, one lemma per constructor. -/

namespace Sys2Proof.Laws.CodeLength

/-- The lengths a code has by the port it stands on: a frame is 4 to 20 bytes (R80), a wire field or a state one
byte, an id two, a link code one or two, a host request at least its operation and an id, and a pseudo-operation a
whole number of transfer codes. -/
def fits : Port → Nat → Prop
  | .frame, n => Config.headerLen ≤ n ∧ n ≤ Config.maxPacket
  | .typeByte, n | .sizeByte, n | .fsm, n => n = 1
  | .id, n => n = 2
  | .link, n => n = 1 ∨ n = 2
  | .host, n => 3 ≤ n
  | .clock, n => n ≤ 1
  | .pseudo, n => n % 2 = 0

/-- The code of a well-formed instruction has a length its port admits. -/
def Statement (i : Instr) : Prop :=
  i.wellFormed = true → fits (encode i).port (encode i).bytes.length

/-- A transfer code is two bytes long. -/
theorem length_readCodes (n : Nat) : (readCodes n).length = 2 * n := by
  induction n with
  | zero => rfl
  | succ n ih => simp only [readCodes, List.length_cons, ih]; omega

theorem frameOutPayload (id : Half) (more : Bool) (payload : List Byte) :
    Statement (.frameOutPayload id more payload) := by
  intro h
  simp only [Instr.wellFormed, Bool.and_eq_true, decide_eq_true_eq] at h
  have hle : payload.length ≤ 16 := h.2
  simp only [encode, fits, List.length_cons, Config.headerLen, Config.maxPacket]
  omega

theorem frameOutEmpty (id : Half) :
    Statement (.frameOutEmpty id) := fun _ => by simp [encode, fits, Config.headerLen, Config.maxPacket]
theorem frameInResponse (id : Half) (cont : Bool) (unused : BitVec 2) (len : BitVec 5) (payload : List Byte) :
    Statement (.frameInResponse id cont unused len payload) := by
  intro h
  have h : payload.length = min len.toNat Config.maxPayload := by simpa [Instr.wellFormed] using h
  have hle : payload.length ≤ 16 := h ▸ Nat.min_le_right _ _
  simp only [encode, fits, List.length_cons, Config.headerLen, Config.maxPacket]
  omega

theorem typeCommand : Statement .typeCommand := fun _ => rfl
theorem typeResponse : Statement .typeResponse := fun _ => rfl
theorem typeAlert : Statement .typeAlert := fun _ => rfl
theorem typeError : Statement .typeError := fun _ => rfl
theorem typeDeviceNotReady : Statement .typeDeviceNotReady := fun _ => rfl
theorem typeReadOverflow : Statement .typeReadOverflow := fun _ => rfl
theorem typeOther (t : Byte) : Statement (.typeOther t) := fun _ => rfl
theorem sizeByte (cont : Bool) (unused : BitVec 2) (len : BitVec 5) :
    Statement (.sizeByte cont unused len) := fun _ => rfl
theorem idInit : Statement .idInit := fun _ => rfl
theorem idAtWrapper : Statement .idAtWrapper := fun _ => rfl
theorem encodeHeader (typ : Byte) (id : Half) (length : Byte) (cont : Bool) :
    Statement (.encodeHeader typ id length cont) := fun _ => by simp [encode, fits]
theorem decodeHeader (h : Header) : Statement (.decodeHeader h) := fun _ => by simp [encode, fits]
theorem execute (commandId : Half) (payload : List Byte) :
    Statement (.execute commandId payload) := fun _ => by simp [encode, fits]
theorem assertSelect : Statement .assertSelect := fun _ => .inl rfl
theorem release : Statement .release := fun _ => .inl rfl
theorem transferByte (out : Byte) : Statement (.transferByte out) := fun _ => .inr rfl
theorem readyAsserted : Statement .readyAsserted := fun _ => .inl rfl
theorem now : Statement .now := fun _ => Nat.zero_le 1
theorem sleep (d : Delay) : Statement (.sleep d) := fun _ => Nat.le_refl 1
theorem readBytes (n : Nat) : Statement (.readBytes n) := fun _ => by simp [encode, fits, length_readCodes]
theorem stIdle : Statement .stIdle := fun _ => rfl
theorem stTxAssert : Statement .stTxAssert := fun _ => rfl
theorem stTxType : Statement .stTxType := fun _ => rfl
theorem stTxNrRelease : Statement .stTxNrRelease := fun _ => rfl
theorem stTxNrDelay : Statement .stTxNrDelay := fun _ => rfl
theorem stTxIdlo : Statement .stTxIdlo := fun _ => rfl
theorem stTxIdhi : Statement .stTxIdhi := fun _ => rfl
theorem stTxSize : Statement .stTxSize := fun _ => rfl
theorem stTxPayload : Statement .stTxPayload := fun _ => rfl
theorem stTxFill : Statement .stTxFill := fun _ => rfl
theorem stTxRelease : Statement .stTxRelease := fun _ => rfl
theorem stTxIfDelay : Statement .stTxIfDelay := fun _ => rfl
theorem stRxSettle : Statement .stRxSettle := fun _ => rfl
theorem stRxAssert : Statement .stRxAssert := fun _ => rfl
theorem stRxPoll : Statement .stRxPoll := fun _ => rfl
theorem stRxType : Statement .stRxType := fun _ => rfl
theorem stRxTogRelease : Statement .stRxTogRelease := fun _ => rfl
theorem stRxTogDelay1 : Statement .stRxTogDelay1 := fun _ => rfl
theorem stRxTogAssert : Statement .stRxTogAssert := fun _ => rfl
theorem stRxTogDelay2 : Statement .stRxTogDelay2 := fun _ => rfl
theorem stRxIdlo : Statement .stRxIdlo := fun _ => rfl
theorem stRxIdhi : Statement .stRxIdhi := fun _ => rfl
theorem stRxSize : Statement .stRxSize := fun _ => rfl
theorem stRxPayload : Statement .stRxPayload := fun _ => rfl
theorem stRxAppend : Statement .stRxAppend := fun _ => rfl
theorem stRxDoneRelease : Statement .stRxDoneRelease := fun _ => rfl
theorem stFailRelease : Statement .stFailRelease := fun _ => rfl
theorem stDone : Statement .stDone := fun _ => rfl

end Sys2Proof.Laws.CodeLength
end

