-- ==== Sys2Proof/Laws/Step.lean ====
section
/-! SUPPORT. What a step is: the reset input's, or the row of `st` run in the state the step begins in. -/

namespace Sys2Proof.Machine

/-- The code of a state decodes to its row (R21). -/
theorem decode_stCode (x : St) : decode ⟨.fsm, [(stCode x).setWidth 8]⟩ = .ok (stRow x) := by
  cases x <;> rfl

/-- With nothing put before the block a step finds the row of `st`. -/
theorem decode_fetch {s : State} (h : s.issued = none) : decode s.fetch = .ok (stRow s.st) := by
  simp [State.fetch, h, decode_stCode]

/-- A step under the reset input. -/
theorem step_of_rst {s : State} (h : s.rst = true) : step s = .next s.applyReset.nextInputs := by
  simp [step, h]

/-- A step of the block itself. -/
theorem step_of_st {s : State} (hr : s.rst = false) (hi : s.issued = none) :
    step s = finishStep (exec (stRow s.st) s.begun) := by
  simp [step, hr, decode_fetch hi]

/-- A step in which a code put before the block is taken. -/
theorem step_of_issued {s : State} {c : Code} {i : Instr} (hr : s.rst = false) (hi : s.issued = some c)
    (hd : decode c = .ok i) : step s = finishStep (exec i s.begun) := by
  simp [step, hr, State.fetch, hi, hd]

/-- A step of a `READ_BYTES` put before the block, with a transfer left (R133, D26). -/
theorem step_of_readBytes {s : State} (n : Nat) (hr : s.rst = false)
    (hi : s.issued = some (encode (.readBytes (n + 1)))) :
    step s = .next (State.nextInputs
      (if n = 0 then
        { s with env := s.env.popByte, trace := .xfer 0xFF s.env.peerByte :: s.trace, issued := none, readBuf := [],
                 result := .bytes (s.readBuf ++ [s.env.peerByte]) }
      else
        { s with env := s.env.popByte, trace := .xfer 0xFF s.env.peerByte :: s.trace,
                 issued := some (encode (.readBytes n)), readBuf := s.readBuf ++ [s.env.peerByte],
                 result := (codecResult s.req).getD s.result })) := by
  rw [step_of_issued hr hi (decode_readCodes (n + 1))]
  show Host.Outcome.next (State.nextInputs (State.readStep (n + 1) s.begun)) = _
  rw [State.readStep_succ]
  cases s
  split <;> rfl

/-- Everything a step that answers a next state can be. -/
theorem step_cases {s t : State} (h : step s = .next t) :
    (s.rst = true ∧ t = s.applyReset.nextInputs) ∨
    (s.rst = false ∧ ∃ i u, decode s.fetch = .ok i ∧ exec i s.begun = .next u ∧ t = u.nextInputs) := by
  by_cases hr : s.rst = true
  · rw [step_of_rst hr] at h
    exact .inl ⟨hr, (Host.Outcome.next.inj h).symm⟩
  · have hr : s.rst = false := by simpa using hr
    refine .inr ⟨hr, ?_⟩
    simp only [step, hr, Bool.false_eq_true, if_false] at h
    cases hd : decode s.fetch with
    | error e => rw [hd] at h; cases h
    | ok i =>
      rw [hd] at h
      cases he : exec i s.begun with
      | next u => exact ⟨i, u, rfl, he, by simp only [he, finishStep] at h; exact (Host.Outcome.next.inj h).symm⟩
      | fault f => simp only [he, finishStep] at h; cases h
      | refused r => simp only [he, finishStep] at h; cases h

/-- The state a step begins in, where no codec request stands on the host port: the state itself. -/
theorem begun_of_no_codec {s : State} (hi : s.issued = none) (hc : codecResult s.req = none) : s.begun = s := by
  cases s
  simp_all [State.begun]

/-- What a step of the block begins in keeps every field but the value output. -/
theorem begun_eq {s : State} (hi : s.issued = none) :
    s.begun = { s with result := (codecResult s.req).getD s.result } := by
  cases s
  simp_all [State.begun]

end Sys2Proof.Machine
end

