-- ==== Sys2Proof/Laws/Run.lean ====
section
/-! SUPPORT. Runs: one step unrolled, and a run cut in two, for any machine and for this one. -/

namespace Sys2Proof.Machine

/-- Every machine's run goes on from the state its first step answers. -/
theorem core_run_succ (M : Host.Core) (k : Nat) {s t : M.State} (h : M.step s = .next t) :
    M.run (k + 1) s = M.run k t := by
  simp only [Host.Core.run, h]

/-- Every machine's run that answers a state can be gone on with. -/
theorem core_run_add (M : Host.Core) (m n : Nat) {s t : M.State} (h : M.run m s = .next t) :
    M.run (m + n) s = M.run n t := by
  induction m generalizing s with
  | zero =>
    rw [Nat.zero_add, Host.Outcome.next.inj h]
  | succ m ih =>
    rw [Nat.succ_add]
    cases hs : M.step s with
    | next u =>
      rw [core_run_succ M m hs] at h
      rw [core_run_succ M (m + n) hs]
      exact ih h
    | fault f => simp only [Host.Core.run, hs] at h; cases h
    | refused r => simp only [Host.Core.run, hs] at h; cases h

/-- A run of this machine goes on from the state its first step answers. -/
theorem run_succ_of_step {s t : State} (k : Nat) (h : step s = .next t) :
    Host.Core.run Sys2Proof.core (k + 1) s = Host.Core.run Sys2Proof.core k t :=
  core_run_succ Sys2Proof.core k h

/-- A run of the block's own next step. -/
theorem run_succ_of_exec {s u : State} (k : Nat) (hr : s.rst = false) (hi : s.issued = none)
    (h : exec (stRow s.st) s.begun = .next u) :
    Host.Core.run Sys2Proof.core (k + 1) s = Host.Core.run Sys2Proof.core k u.nextInputs :=
  run_succ_of_step k (by rw [step_of_st hr hi, h]; rfl)

/-- A run of this machine that answers a state can be gone on with. -/
theorem run_add {s t : State} (m n : Nat) (h : Host.Core.run Sys2Proof.core m s = .next t) :
    Host.Core.run Sys2Proof.core (m + n) s = Host.Core.run Sys2Proof.core n t :=
  core_run_add Sys2Proof.core m n h

end Sys2Proof.Machine
end

