-- ==== Sys2Proof/Tests/Slice0.lean ====
section
/-! SUPPORT. Tests. The expected results come from spec/95_test_vectors.md (its vector is named) or from the encoding
rules by hand; the witnesses at the end show, for every statement with hypotheses, operands that meet them. -/

namespace Sys2Proof.Tests

open Sys2Proof.Machine Sys2Proof.Safety

/-! ## WellFormed: each check refuses -/

theorem test_wellFormed_refuses_empty_payload : (Instr.frameOutPayload 0x0A00 false []).wellFormed = false := by decide
theorem test_wellFormed_refuses_seventeen_bytes :
    (Instr.frameOutPayload 0x0A00 false (List.replicate 17 0x41)).wellFormed = false := by decide
theorem test_wellFormed_refuses_undeclared_length :
    (Instr.frameInResponse 0x0A00 false 0 2 [0x4F]).wellFormed = false := by decide
theorem test_wellFormed_refuses_named_type : (Instr.typeOther 0x20).wellFormed = false := by decide
theorem test_wellFormed_accepts_clamped_length :
    (Instr.frameInResponse 0x0A00 false 0 31 (List.replicate 16 0xD0)).wellFormed = true := by decide

/-! ## Decoding: every row's word written out from its encoding (R81, R83, R86, R88, R89, R92, R94, R21) -/

theorem test_decode_frameOutPayload :
    decode ⟨.frame, [0b00010000, 0x00, 0x0A, 0b10010000, 0xA0, 0xA1, 0xA2, 0xA3, 0xA4, 0xA5, 0xA6, 0xA7, 0xA8, 0xA9,
      0xAA, 0xAB, 0xAC, 0xAD, 0xAE, 0xAF]⟩ =
    .ok (.frameOutPayload 0x0A00 true [0xA0, 0xA1, 0xA2, 0xA3, 0xA4, 0xA5, 0xA6, 0xA7, 0xA8, 0xA9, 0xAA, 0xAB, 0xAC,
      0xAD, 0xAE, 0xAF]) := by rfl
theorem test_decode_frameOutEmpty :
    decode ⟨.frame, [0b00010000, 0xEF, 0xBE, 0b11111111]⟩ = .ok (.frameOutEmpty 0xBEEF) := by rfl
theorem test_decode_frameInResponse :
    decode ⟨.frame, [0b00100000, 0x34, 0x12, 0b11100011, 0x61, 0x62, 0x63]⟩ =
    .ok (.frameInResponse 0x1234 true 3 3 [0x61, 0x62, 0x63]) := by rfl
theorem test_decode_typeCommand : decode ⟨.typeByte, [0b00010000]⟩ = .ok .typeCommand := by rfl
theorem test_decode_typeResponse : decode ⟨.typeByte, [0b00100000]⟩ = .ok .typeResponse := by rfl
theorem test_decode_typeAlert : decode ⟨.typeByte, [0b01000000]⟩ = .ok .typeAlert := by rfl
theorem test_decode_typeError : decode ⟨.typeByte, [0b10000000]⟩ = .ok .typeError := by rfl
theorem test_decode_typeDeviceNotReady : decode ⟨.typeByte, [0b11111110]⟩ = .ok .typeDeviceNotReady := by rfl
theorem test_decode_typeReadOverflow : decode ⟨.typeByte, [0b11111111]⟩ = .ok .typeReadOverflow := by rfl
theorem test_decode_typeOther : decode ⟨.typeByte, [0b00110000]⟩ = .ok (.typeOther 0x30) := by rfl
theorem test_decode_sizeByte : decode ⟨.sizeByte, [0b10111111]⟩ = .ok (.sizeByte true 1 31) := by rfl
theorem test_decode_idInit : decode ⟨.id, [0xEF, 0xBE]⟩ = .ok .idInit := by rfl
theorem test_decode_idAtWrapper : decode ⟨.id, [0x00, 0x0A]⟩ = .ok .idAtWrapper := by rfl
theorem test_decode_encodeHeader :
    decode ⟨.host, [0b01, 0x10, 0x00, 0x0A, 0x03, 1]⟩ = .ok (.encodeHeader 0x10 0x0A00 3 true) := by rfl
theorem test_decode_decodeHeader :
    decode ⟨.host, [0b10, 0x20, 0x00, 0x0A, 0xE5]⟩ = .ok (.decodeHeader ⟨0x20, 0x00, 0x0A, 0xE5⟩) := by rfl
theorem test_decode_execute :
    decode ⟨.host, [0b11, 0x00, 0x0A, 0x41, 0x54, 0x49]⟩ = .ok (.execute 0x0A00 [0x41, 0x54, 0x49]) := by rfl
theorem test_decode_assertSelect : decode ⟨.link, [0b001]⟩ = .ok .assertSelect := by rfl
theorem test_decode_release : decode ⟨.link, [0b010]⟩ = .ok .release := by rfl
theorem test_decode_transferByte : decode ⟨.link, [0b011, 0x10]⟩ = .ok (.transferByte 0x10) := by rfl
theorem test_decode_readyAsserted : decode ⟨.link, [0b100]⟩ = .ok .readyAsserted := by rfl
theorem test_decode_now : decode ⟨.clock, []⟩ = .ok .now := by rfl
theorem test_decode_sleep :
    [0, 1, 2, 3, 4].map (fun k => decode ⟨.clock, [k]⟩) =
    [.ok (.sleep .retry), .ok (.sleep .interframe), .ok (.sleep .settle), .ok (.sleep .rxtogShort),
     .ok (.sleep .rxtogMand)] := by rfl
theorem test_decode_readBytes : decode ⟨.pseudo, [3, 0xFF, 3, 0xFF, 3, 0xFF]⟩ = .ok (.readBytes 3) := by rfl
theorem test_decode_states_0_to_13 :
    [0, 1, 2, 3, 4, 5, 6, 7, 8, 9, 10, 11, 12, 13].map (fun k => decode ⟨.fsm, [k]⟩) =
    [.ok .stIdle, .ok .stTxAssert, .ok .stTxType, .ok .stTxNrRelease, .ok .stTxNrDelay, .ok .stTxIdlo, .ok .stTxIdhi,
     .ok .stTxSize, .ok .stTxPayload, .ok .stTxFill, .ok .stTxRelease, .ok .stTxIfDelay, .ok .stRxSettle,
     .ok .stRxAssert] := by rfl
theorem test_decode_states_14_to_27 :
    [14, 15, 16, 17, 18, 19, 20, 21, 22, 23, 24, 25, 26, 27].map (fun k => decode ⟨.fsm, [k]⟩) =
    [.ok .stRxPoll, .ok .stRxType, .ok .stRxTogRelease, .ok .stRxTogDelay1, .ok .stRxTogAssert, .ok .stRxTogDelay2,
     .ok .stRxIdlo, .ok .stRxIdhi, .ok .stRxSize, .ok .stRxPayload, .ok .stRxAppend, .ok .stRxDoneRelease,
     .ok .stFailRelease, .ok .stDone] := by rfl
theorem test_decode_refuses_unused_state : decode ⟨.fsm, [31]⟩ = .error .unusedStateCode := by rfl
theorem test_decode_refuses_unused_link : decode ⟨.link, [0b101]⟩ = .error .unusedOperation := by rfl
theorem test_decode_refuses_no_operation : decode ⟨.host, [0b00]⟩ = .error .noOperation := by rfl
theorem test_decode_refuses_length_17_outbound :
    decode ⟨.frame, [0x10, 0x00, 0x0A, 0x11]⟩ = .error .illegalOutboundFrame := by rfl
theorem test_decode_refuses_unused_bits_outbound :
    decode ⟨.frame, [0x10, 0x00, 0x0A, 0x63, 0x61, 0x62, 0x63]⟩ = .error .illegalOutboundFrame := by rfl
theorem test_decode_refuses_alert_frame : decode ⟨.frame, [0x40, 0x00, 0x0A, 0x00]⟩ = .error .notAFrame := by rfl
theorem test_decode_refuses_other_id : decode ⟨.id, [0x34, 0x12]⟩ = .error .idNotReserved := by rfl
theorem test_table_word_frame : decodeTableWord 32 0x2000_0A02 = some (.frameInResponse 0x0A00 false 0 2 [0, 0]) := by
  rfl
theorem test_table_word_state : decodeTableWord 8 22 = some .stRxSize := by rfl

/-! ## Small states -/

/-- The REF configuration (D36). -/
def ref : Params where
  txCap := 64
  rxCap := 64
  readTimeout := 1000
  tRetry := 1
  tInterframe := 1
  tSettle := 5
  tRxtogShort := 1
  tRxtogMand := 5

/-- The state after reset in the REF configuration, at a state of the FSM. -/
def at' (x : St) : State :=
  { State.reset with st := x, cfg := ref }

/-- The same with the peer's coming answers. -/
def answering (x : St) (bytes : List Byte) : State :=
  { at' x with env := { State.reset.env with bytes := bytes } }

/-- Some fields of the next state, if there is one. -/
def after {α : Type} (o : Host.Outcome State Fault Refusal) (f : State → α) : Option α :=
  match o with
  | .next t => some (f t)
  | .fault _ | .refused _ => none

/-! ## One step: vectors of spec/95_test_vectors.md -/

/-- E2. -/
theorem test_encodeHeader_full_chunk :
    after (exec (.encodeHeader 0x10 0x0A00 16 true) (at' .idle)) State.result =
    some (.header ⟨0x10, 0x00, 0x0A, 0x90⟩) := by decide
/-- E9. -/
theorem test_encodeHeader_fails :
    after (exec (.encodeHeader 0x10 0x0A00 17 false) (at' .idle)) State.result = some .encFail := by decide
/-- D4v. -/
theorem test_decodeHeader_ignores_unused :
    after (exec (.decodeHeader ⟨0x20, 0x00, 0x0A, 0xE5⟩) (at' .idle)) State.result =
    some (.fields ⟨0x20, 0x0A00, 5, true⟩) := by decide
/-- D9v. -/
theorem test_decodeHeader_does_not_clamp :
    after (exec (.decodeHeader ⟨0xFF, 0xFF, 0xFF, 0xFF⟩) (at' .idle)) State.result =
    some (.fields ⟨0xFF, 0xFFFF, 31, true⟩) := by decide
/-- P1, step 1. -/
theorem test_execute_starts :
    after (exec (.execute 0x0A00 [0x41, 0x54, 0x49]) (at' .done))
      (fun t => (t.st, t.cmdId, t.txbuf, t.txLen, t.err)) =
    some (.txAssert, 0x0A00, [(0, 0x41), (1, 0x54), (2, 0x49)], 3, .ok) := by rfl
/-- X1. -/
theorem test_execute_rejects_65_bytes :
    after (exec (.execute 0x0A00 (List.replicate 65 0)) (at' .idle)) (fun t => (t.st, t.err, t.sel, t.trace)) =
    some (.done, .packetTooLarge, false, []) := by decide
/-- L1. -/
theorem test_assertSelect : after (exec .assertSelect (at' .idle)) (fun t => (t.sel, t.trace)) =
    some (true, [.selAssert]) := by decide
/-- L2. -/
theorem test_release : after (exec .release { at' .rxPoll with sel := true }) (fun t => (t.sel, t.trace)) =
    some (false, [.selRelease]) := by decide
/-- L3. -/
theorem test_transferByte :
    after (exec (.transferByte 0x10) (answering .idle [0xFE])) (fun t => (t.result, t.trace)) =
    some (.byte 0xFE, [.xfer 0x10 0xFE]) := by decide
/-- L4. -/
theorem test_readBytes_first :
    after (exec (.readBytes 3) (answering .idle [0x00, 0x0A, 0x02])) (fun t => (t.result, t.readBuf, t.trace, t.issued)) =
    some (.none, [0x00], [.xfer 0xFF 0x00], some ⟨.pseudo, [3, 0xFF, 3, 0xFF]⟩) := by decide
/-- L4, the last of its three transfers. -/
theorem test_readBytes_last :
    after (exec (.readBytes 1) { answering .idle [0x02] with readBuf := [0x00, 0x0A] })
      (fun t => (t.result, t.readBuf, t.trace, t.issued)) =
    some (.bytes [0x00, 0x0A, 0x02], [], [.xfer 0xFF 0x02], none) := by decide
/-- L6. -/
theorem test_readyAsserted :
    after (exec .readyAsserted { at' .idle with env := { State.reset.env with levels := [false] } })
      (fun t => (t.result, t.trace)) = some (.level false, [.ready false]) := by decide
/-- R135. -/
theorem test_now : after (exec .now { at' .idle with now := 13 }) State.result = some (.time 13) := by decide
/-- L7. -/
theorem test_sleep_stays : after (exec (.sleep .settle) { at' .rxSettle with tMark := 9, now := 13 }) State.st =
    some .rxSettle := by decide
/-- L8. -/
theorem test_sleep_leaves : after (exec (.sleep .settle) { at' .rxSettle with tMark := 9, now := 14 }) State.st =
    some .rxAssert := by decide
/-- R151 without a request. -/
theorem test_idle_waits : after (exec .stIdle (at' .idle)) (fun t => t == at' .idle) = some true := by decide
/-- R218. -/
theorem test_done_starts_again :
    after (exec .stDone { at' .done with req := .execute 0xBEEF [], err := .readTimeout })
      (fun t => (t.st, t.err, t.txLen)) = some (.txAssert, .ok, 0) := by decide
/-- P3, frame 1. -/
theorem test_txAssert_last_chunk :
    after (exec .stTxAssert { at' .txAssert with cmdId := 0x0A00, txLen := 20, txOff := 16, txbuf := [(16, 0xB0)] })
      (fun t => (t.st, t.sel, t.attempts, t.fSize, t.fLen, t.fPay)) =
    some (.txType, true, 1, 0x04, 4, [(0, 0xB0)]) := by rfl
/-- P4, frame 1: the count of the frame before does not outlive it (R27). -/
theorem test_txAssert_starts_the_count :
    after (exec .stTxAssert { at' .txAssert with txLen := 17, txOff := 16, fLen := 16, byteIx := 16 })
      (fun t => (t.fLen, t.byteIx)) = some (1, 0) := by decide
/-- H1. -/
theorem test_txType_not_ready : after (exec .stTxType (answering .txType [0xFE])) (fun t => (t.st, t.trace)) =
    some (.txNrRelease, [.xfer 0x10 0xFE]) := by decide
/-- H2. -/
theorem test_txType_overflow_is_accepted : after (exec .stTxType (answering .txType [0xFF])) State.st =
    some .txIdlo := by decide
/-- H3. -/
theorem test_txNrRelease_24 :
    after (exec .stTxNrRelease { at' .txNrRelease with attempts := 24, now := 7 })
      (fun t => (t.st, t.tMark, t.trace)) = some (.txNrDelay, 7, [.selRelease]) := by decide
/-- H4. -/
theorem test_txNrRelease_25 :
    after (exec .stTxNrRelease { at' .txNrRelease with attempts := 25 }) (fun t => (t.st, t.err)) =
    some (.done, .writeTimeout) := by decide
/-- H5. -/
theorem test_txNrDelay_stays : after (exec .stTxNrDelay { at' .txNrDelay with tMark := 7, now := 7 }) State.st =
    some .txNrDelay := by decide
/-- H6. -/
theorem test_txNrDelay_leaves : after (exec .stTxNrDelay { at' .txNrDelay with tMark := 7, now := 8 }) State.st =
    some .txAssert := by decide
/-- P2. -/
theorem test_txIdlo : after (exec .stTxIdlo { answering .txIdlo [0] with cmdId := 0xBEEF })
    (fun t => (t.st, t.trace)) = some (.txIdhi, [.xfer 0xEF 0x00]) := by decide
/-- P2: no payload goes to the filler. -/
theorem test_txIdhi_empty : after (exec .stTxIdhi { answering .txIdhi [0] with cmdId := 0xBEEF })
    (fun t => (t.st, t.trace)) = some (.txFill, [.xfer 0xBE 0x00]) := by decide
/-- Table F, L = 17: the first size byte. -/
theorem test_txSize_first_of_17 : after (exec .stTxSize { answering .txSize [0] with txLen := 17 })
    (fun t => (t.st, t.trace)) = some (.txPayload, [.xfer 0x90 0x00]) := by decide
/-- Table F, L = 17: the second size byte. -/
theorem test_txSize_second_of_17 : after (exec .stTxSize { answering .txSize [0] with txLen := 17, txOff := 16 })
    State.trace = some [.xfer 0x01 0x00] := by decide
/-- P1, step 9. -/
theorem test_txPayload_last :
    after (exec .stTxPayload { answering .txPayload [0] with txLen := 3, byteIx := 2, txbuf := [(2, 0x49)] })
      (fun t => (t.st, t.byteIx, t.trace)) = some (.txRelease, 3, [.xfer 0x49 0x00]) := by decide
/-- P2. -/
theorem test_txFill : after (exec .stTxFill (answering .txFill [0])) (fun t => (t.st, t.trace)) =
    some (.txRelease, [.xfer 0xFF 0x00]) := by decide
/-- H7. -/
theorem test_txRelease_more :
    after (exec .stTxRelease { at' .txRelease with txLen := 20, attempts := 3, now := 9, sel := true })
      (fun t => (t.st, t.txOff, t.attempts, t.tMark, t.sel)) = some (.txIfDelay, 16, 0, 9, false) := by decide
/-- H8. -/
theorem test_txRelease_last :
    after (exec .stTxRelease { at' .txRelease with txLen := 20, txOff := 16, now := 9 })
      (fun t => (t.st, t.txOff, t.tMark)) = some (.rxSettle, 20, 9) := by decide
/-- R183. -/
theorem test_txIfDelay : after (exec .stTxIfDelay { at' .txIfDelay with tMark := 7, now := 8 }) State.st =
    some .txAssert := by decide
/-- P1, step 15. -/
theorem test_rxSettle : after (exec .stRxSettle { at' .rxSettle with tMark := 9, now := 14 }) State.st =
    some .rxAssert := by decide
/-- H9. -/
theorem test_rxAssert : after (exec .stRxAssert { at' .rxAssert with now := 15 })
    (fun t => (t.st, t.tRx, t.sel, t.trace)) = some (.rxPoll, 15, true, [.selAssert]) := by decide
/-- H11. -/
theorem test_rxPoll_high :
    after (exec .stRxPoll { at' .rxPoll with tRx := 15, now := 1014, env := { State.reset.env with levels := [true] } })
      (fun t => (t.st, t.trace)) = some (.rxType, [.ready true]) := by decide
/-- H12. -/
theorem test_rxPoll_elapsed :
    after (exec .stRxPoll { at' .rxPoll with tRx := 15, now := 1015, env := { State.reset.env with levels := [true] } })
      (fun t => (t.st, t.err, t.trace)) = some (.failRelease, .readTimeout, []) := by decide
/-- The classification table: 20, FE, FF, 10. -/
theorem test_rxType_named :
    [0x20, 0xFE, 0xFF, 0x10].map (fun b => after (exec .stRxType (answering .rxType [b]))
      (fun t => (t.st, t.err, t.fType))) =
    [some (.rxIdlo, .ok, 0x20), some (.rxTogRelease, .ok, 0xFE), some (.rxTogRelease, .ok, 0xFF),
     some (.failRelease, .unexpectedMessageType, 0x10)] := by decide
/-- The classification table: 40, 80, 00, 21, 30, 7F. -/
theorem test_rxType_unexpected :
    [0x40, 0x80, 0x00, 0x21, 0x30, 0x7F].map (fun b => after (exec .stRxType (answering .rxType [b]))
      (fun t => (t.st, t.err))) = List.replicate 6 (some (.failRelease, .unexpectedMessageType)) := by decide
/-- H13. -/
theorem test_rxTogRelease : after (exec .stRxTogRelease { at' .rxTogRelease with now := 9, tRx := 4 })
    (fun t => (t.st, t.tMark, t.tRx, t.trace)) = some (.rxTogDelay1, 9, 4, [.selRelease]) := by decide
/-- R188. -/
theorem test_rxTogDelay1 : after (exec .stRxTogDelay1 { at' .rxTogDelay1 with tMark := 9, now := 10 }) State.st =
    some .rxTogAssert := by decide
/-- H14. -/
theorem test_rxTogAssert : after (exec .stRxTogAssert { at' .rxTogAssert with now := 9 })
    (fun t => (t.st, t.tMark, t.trace)) = some (.rxTogDelay2, 9, [.selAssert]) := by decide
/-- H15. -/
theorem test_rxTogDelay2 : after (exec .stRxTogDelay2 { at' .rxTogDelay2 with tMark := 30, now := 35 }) State.st =
    some .rxPoll := by decide
/-- P1, step 19: the other byte of `f_id` stays. -/
theorem test_rxIdlo : after (exec .stRxIdlo { answering .rxIdlo [0x00] with fId := 0x1234 })
    (fun t => (t.st, t.fId)) = some (.rxIdhi, 0x1200) := by decide
/-- P1, step 20. -/
theorem test_rxIdhi : after (exec .stRxIdhi { answering .rxIdhi [0x0A] with fId := 0x1200 })
    (fun t => (t.st, t.fId)) = some (.rxSize, 0x0A00) := by decide
/-- Table R: 00, 80, 10, 11, 9F, FF, 63, 30, 20. -/
theorem test_rxSize :
    [0x00, 0x80, 0x10, 0x11, 0x9F, 0xFF, 0x63, 0x30, 0x20].map (fun b => after (exec .stRxSize (answering .rxSize [b]))
      (fun t => (t.fLen, t.contFlag, t.st))) =
    [some (0, false, .rxAppend), some (0, true, .rxAppend), some (16, false, .rxPayload), some (16, false, .rxPayload),
     some (16, true, .rxPayload), some (16, true, .rxPayload), some (3, false, .rxPayload),
     some (16, false, .rxPayload), some (0, false, .rxAppend)] := by decide
/-- P1, step 23. -/
theorem test_rxPayload :
    after (exec .stRxPayload { answering .rxPayload [0x4B] with byteIx := 1, fLen := 2, fPay := [(0, 0x4F)] })
      (fun t => (t.st, t.byteIx, t.fPay)) = some (.rxAppend, 2, [(0, 0x4F), (1, 0x4B)]) := by decide
/-- The append table: 48+16 cont 1, 48+16 cont 0, 64+0. -/
theorem test_rxAppend_fits :
    [(48, 16, 0x90), (48, 16, 0x10), (64, 0, 0x00)].map (fun (x : Nat × Nat × Byte) =>
      after (exec .stRxAppend { at' .rxAppend with rxLen := x.1, fLen := x.2.1, fSize := x.2.2 })
        (fun t => (t.rxLen, t.err, t.st))) =
    [some (64, .ok, .rxPoll), some (64, .ok, .rxDoneRelease), some (64, .ok, .rxDoneRelease)] := by decide
/-- The append table: 49+16, 64+1 cont 0, 64+1 cont 1. -/
theorem test_rxAppend_overflows :
    [(49, 16, 0x10), (64, 1, 0x01), (64, 1, 0x81)].map (fun (x : Nat × Nat × Byte) =>
      after (exec .stRxAppend { at' .rxAppend with rxLen := x.1, fLen := x.2.1, fSize := x.2.2 })
        (fun t => (t.rxLen, t.err, t.st))) =
    [some (49, .responseBufferOverflow, .failRelease), some (64, .responseBufferOverflow, .failRelease),
     some (64, .responseBufferOverflow, .failRelease)] := by decide
/-- P1, step 25. -/
theorem test_rxDoneRelease : after (exec .stRxDoneRelease { at' .rxDoneRelease with sel := true })
    (fun t => (t.st, t.sel, t.trace)) = some (.done, false, [.selRelease]) := by decide
/-- R217. -/
theorem test_failRelease :
    after (exec .stFailRelease { at' .failRelease with sel := true, err := .readTimeout })
      (fun t => (t.st, t.sel, t.err)) = some (.done, false, .readTimeout) := by decide
/-- P1: the outbound frame. -/
theorem test_frameOutPayload :
    after (exec (.frameOutPayload 0x0A00 false [0x41, 0x54, 0x49]) (answering .txAssert [0, 0, 0, 0, 0, 0, 0]))
      (fun t => (t.st, t.trace.reverse)) =
    some (.rxSettle, [.selAssert, .xfer 0x10 0, .xfer 0x00 0, .xfer 0x0A 0, .xfer 0x03 0, .xfer 0x41 0, .xfer 0x54 0,
      .xfer 0x49 0, .selRelease]) := by decide
/-- S2. -/
theorem test_frameOutEmpty :
    after (exec (.frameOutEmpty 0xBEEF) (answering .txAssert [0, 0, 0, 0])) (fun t => (t.st, t.trace.reverse)) =
    some (.rxSettle, [.selAssert, .xfer 0x10 0, .xfer 0xEF 0, .xfer 0xBE 0, .xfer 0xFF 0, .selRelease]) := by decide
/-- P1: the inbound frame. -/
theorem test_frameInResponse :
    after (exec (.frameInResponse 0x0A00 false 0 2 [0x4F, 0x4B]) (at' .rxType))
      (fun t => (t.st, t.rxLen, t.rxbuf, t.fId)) =
    some (.rxDoneRelease, 2, [(0, 0x4F), (1, 0x4B)], 0x0A00) := by decide
/-- H1 and the classification table, by the rows of the type byte. -/
theorem test_type_rows :
    [Instr.typeCommand, .typeResponse, .typeAlert, .typeError, .typeDeviceNotReady, .typeReadOverflow,
      .typeOther 0x7F].map (fun i => (after (exec i (at' .txType)) State.st, after (exec i (at' .rxType)) State.st)) =
    [(some .txIdlo, some .failRelease), (some .txIdlo, some .rxIdlo), (some .txIdlo, some .failRelease),
     (some .txIdlo, some .failRelease), (some .txNrRelease, some .rxTogRelease), (some .txIdlo, some .rxTogRelease),
     (some .txIdlo, some .failRelease)] := by decide
/-- Table R: E3. -/
theorem test_sizeByte_read : after (exec (.sizeByte true 3 3) (at' .rxSize)) (fun t => (t.fSize, t.fLen, t.st)) =
    some (0xE3, 3, .rxPayload) := by decide
/-- R84: the unused bits go out as 0. -/
theorem test_sizeByte_sent : after (exec (.sizeByte true 3 3) (answering .txSize [0])) State.trace =
    some [.xfer 0x83 0x00] := by decide
/-- P2: the id of the answer. -/
theorem test_idInit_read : after (exec .idInit (at' .rxIdlo)) (fun t => (t.st, t.fId)) = some (.rxSize, 0xBEEF) := by
  decide
/-- P1: the id going out. -/
theorem test_idAtWrapper_sent :
    after (exec .idAtWrapper { answering .txIdlo [0, 0] with txLen := 3 }) (fun t => (t.st, t.trace)) =
    some (.txSize, [.xfer 0x0A 0x00, .xfer 0x00 0x00]) := by decide
/-- R270. -/
theorem test_step_reset :
    after (step { at' .txPayload with rst := true, sel := true, attempts := 3 })
      (fun t => (t.st, t.sel, t.attempts, t.trace)) = some (.idle, false, 0, []) := by decide
/-- R34, R114: the codec answers in a reset step too (E9). -/
theorem test_step_reset_codec :
    after (step { at' .txPayload with rst := true, req := .encodeHeader 0x10 0x0A00 17 false })
      (fun t => (t.st, t.result)) = some (.idle, .encFail) := by decide
/-- R165: the request of a busy step is gone in the next. -/
theorem test_step_busy :
    after (step { at' .rxSettle with
        tMark := 0, now := 0, req := .execute 0 [],
        env := { State.reset.env with inputs := [⟨.none, false, 5⟩] } })
      (fun t => (t.st, t.now, t.req)) = some (.rxSettle, 5, .none) := by decide

/-! ## Witnesses: operands that meet the hypotheses of each statement that has some, at the ends of their ranges -/

/-- A three-byte command about to go out. -/
def sendStart : State :=
  { at' .txAssert with cmdId := 0x0A00, txbuf := [(0, 0x41), (1, 0x54), (2, 0x49)], txLen := 3 }

/-- A three-byte command gone out, the window open. -/
def polling : State :=
  { at' .rxPoll with sel := true, now := 16, tRx := 15, txLen := 3, txOff := 3 }

/-- The two states meet the invariants, as do one that waits, one between two chunks' bytes, one inside a response, one
on the failure exit, and one at every bound. -/
theorem witness_inv_sendStart : Inv sendStart := by constructor <;> decide
theorem witness_inv_polling : Inv polling := by constructor <;> decide
theorem witness_inv_idle : Inv (at' .idle) := by constructor <;> decide
theorem witness_inv_sending_byte :
    Inv { at' .txPayload with sel := true, attempts := 25, txLen := 64, txOff := 48, fLen := 16, byteIx := 15 } := by
  constructor <;> decide
theorem witness_inv_receiving_byte :
    Inv { at' .rxPayload with sel := true, rxLen := 64, fLen := 16, byteIx := 15 } := by
  constructor <;> decide
theorem witness_inv_failing : Inv { at' .failRelease with sel := true, err := .readTimeout } := by
  constructor <;> decide

theorem witness_EncodeThenDecodeRoundTrips : (⟨0xFE, 0xFFFF, 16, true⟩ : HeaderFields).len ≤ 16 := by decide
theorem witness_DecodeThenEncodeClearsUnusedBits :
    ((0x11 : Byte) &&& 0x1F).toNat > 16 ∧ ((0x70 : Byte) &&& 0x1F).toNat ≤ 16 ∧
    encodeHeaderFields (decodeHeaderBytes ⟨0x20, 0x00, 0x0A, 0x90⟩) = some ⟨0x20, 0x00, 0x0A, 0x90⟩ := by decide
theorem witness_CodecRequestDisturbsNoStep :
    (polling.issued = none ∧ ∃ t, step { polling with req := .none } = .next t) ∧
    ∃ t, step { polling with rst := true, req := .none } = .next t :=
  ⟨⟨rfl, _, rfl⟩, _, rfl⟩
theorem witness_ReadBytesIsRepeatedTransfer :
    let xs : List StepInput := [⟨.none, false, 1⟩, ⟨.execute 0 [], false, 0⟩]
    let later : List StepInput := [⟨.none, true, 5⟩]
    let s : State := { answering .idle [0x00, 0x0A, 0x02] with
      issued := some ⟨.pseudo, [3, 0xFF, 3, 0xFF]⟩,
      env := { (answering .idle [0x00, 0x0A, 0x02]).env with inputs := xs ++ later } }
    s.issued = some (encode (.readBytes 2)) ∧ s.readBuf = [] ∧ s.rst = false ∧
    s.env.inputs = xs ++ later ∧ xs.length = 2 ∧ (∀ x ∈ xs, x.reset = false) ∧
    s.env.bytes = [(0x00 : Byte), 0x0A] ++ [0x02] ∧ [(0x00 : Byte), 0x0A].length = 2 := by
  decide
theorem witness_ReadBytesIsRepeatedTransfer_under_reset :
    ∃ t, step { polling with rst := true, issued := some ⟨.pseudo, [3, 0xFF]⟩, readBuf := [0x00] } = .next t := ⟨_, rfl⟩
theorem witness_ClockIsReadAndNeverRunsBack : ∃ t, step polling = .next t := ⟨_, rfl⟩
theorem witness_WithoutExecuteTheBlockWaits :
    (∀ id payload, (at' .idle).req ≠ .execute id payload) ∧
    ∀ id payload, { at' .done with req := .decodeHeader ⟨0, 0, 0, 0⟩ }.req ≠ .execute id payload := by
  constructor <;> intro _ _ h <;> cases h
theorem witness_TooLongPayloadIsRejectedAtEntry :
    (List.replicate 65 (0 : Byte)).length > { at' .idle with req := .execute 0 (List.replicate 65 0) }.cfg.txCap ∧
    (at' .done).st = .done ∧ (at' .idle).st = .idle := by decide
theorem witness_ExecuteStartsAnExchange :
    (List.replicate 64 (0 : Byte)).length ≤ { at' .idle with req := .execute 0 (List.replicate 64 0) }.cfg.txCap ∧
    ([] : List Byte).length ≤ (at' .done).cfg.txCap ∧ (at' .idle).txbuf.wf = true ∧ (at' .done).st = .done := by decide
theorem witness_RequestWhileBusyIsLost :
    polling.st ≠ .idle ∧ polling.st ≠ .done ∧ polling.rst = false ∧ polling.issued = none := by decide
theorem witness_TxAssertSelectsAndLoadsScratch :
    let s := { at' .txAssert with txLen := 64, txOff := 48 }
    s.fPay.wf = true ∧ s.txOff + min 16 (s.txLen - s.txOff) ≤ s.cfg.txCap ∧
      min 16 ((at' .txAssert).txLen - (at' .txAssert).txOff) = 0 := by
  decide
theorem witness_TxPayloadSendsOneByte :
    let s := { at' .txPayload with txLen := 64, txOff := 48, byteIx := 15 }
    s.txOff + s.byteIx < s.cfg.txCap := by decide
theorem witness_ChunksAreSixteenBytesInOrder :
    (at' .txRelease).txOff = 0 ∧ 0 < max 1 (((at' .txRelease).txLen + 15) / 16) ∧
    { at' .txRelease with txLen := 33 }.txOff = 0 ∧ 0 + 1 < max 1 ((33 + 15) / 16) ∧ 2 + 1 = max 1 ((33 + 15) / 16) := by
  decide
theorem witness_RxPayloadStoresOneByte :
    let s := { at' .rxPayload with byteIx := 15, fLen := 16 }
    s.fPay.wf = true ∧ s.byteIx < 16 := by decide
theorem witness_RxAppendAppendsOrOverflows :
    let full := { at' .rxAppend with rxLen := 48, fLen := 16 }
    let past := { at' .rxAppend with rxLen := 49, fLen := 16 }
    (full.rxbuf.wf = true ∧ full.fLen ≤ 16 ∧ full.rxLen + full.fLen ≤ full.cfg.rxCap) ∧
    (past.rxbuf.wf = true ∧ past.fLen ≤ 16 ∧ past.rxLen + past.fLen > past.cfg.rxCap) := by decide
theorem witness_TypeRowsOnReceive :
    (at' .rxType).st = .rxType ∧ (0x21 : Byte) ∉ [0x10, 0x20, 0x40, 0x80, 0xFE, 0xFF] := by decide
theorem witness_TypeRowsAsEcho : (at' .txType).st = .txType ∧ (0xFD : Byte) ≠ 0xFE := by decide
theorem witness_SizeByteReadAndSent :
    (at' .rxSize).st = .rxSize ∧ ((at' .txSize).st = .txSize ∧ (16 : BitVec 5).toNat ≤ 16) ∧ 16 < (17 : BitVec 5).toNat := by
  decide
theorem witness_ReservedIdsMoveLowByteFirst : (at' .rxIdlo).st = .rxIdlo ∧ (at' .txIdlo).st = .txIdlo := by decide
theorem witness_PayloadFrameOnTheWire :
    let s := answering .txAssert [0xFF]
    s.st = .txAssert ∧ s.fPay.wf = true ∧ s.env.peerByte ≠ 0xFE ∧ 1 ≤ [(0x41 : Byte)].length ∧
      (List.replicate 16 (0x41 : Byte)).length ≤ 16 := by decide
theorem witness_EmptyFrameOnTheWire :
    (answering .txAssert [0x00]).st = .txAssert ∧ (answering .txAssert [0x00]).env.peerByte ≠ 0xFE := by decide
theorem witness_RefusedFramePutsOneByteOnTheWire :
    let s := answering .txAssert [0xFE]
    s.st = .txAssert ∧ 1 ≤ [(0x41 : Byte)].length ∧ [(0x41 : Byte)].length ≤ 16 ∧ s.env.peerByte = 0xFE ∧
      { s with attempts := 23 }.attempts + 1 < 25 ∧ { s with attempts := 24 }.attempts + 1 ≥ 25 := by decide
theorem witness_ResponseFrameIsReadAndAppended :
    (at' .rxType).st = .rxType ∧ ([] : List Byte).length = min (0 : BitVec 5).toNat 16 ∧
    (List.replicate 16 (0xD0 : Byte)).length = min (31 : BitVec 5).toNat 16 ∧ (at' .rxType).fPay.wf = true ∧
    (at' .rxType).rxbuf.wf = true ∧ { at' .rxType with rxLen := 48 }.rxLen + 16 ≤ (at' .rxType).cfg.rxCap ∧
    { at' .rxType with rxLen := 49 }.rxLen + 16 > (at' .rxType).cfg.rxCap := by decide
theorem witness_WireRowsActInTheirPositionOnly :
    let s := at' .rxPayload
    s.st ≠ .txType ∧ s.st ≠ .rxType ∧ s.st ≠ .txSize ∧ s.st ≠ .rxSize ∧ s.st ≠ .txIdlo ∧ s.st ≠ .rxIdlo ∧
      s.st ≠ .txAssert := by decide
theorem witness_DecodeUndoesEncode :
    (Instr.frameOutPayload 0xFFFF true (List.replicate 16 0xFF)).wellFormed = true ∧
    (Instr.frameInResponse 0 false 3 31 (List.replicate 16 0)).wellFormed = true ∧
    (Instr.typeOther 0).wellFormed = true ∧ (Instr.readBytes 20).wellFormed = true := by decide
theorem witness_DecodedIsWellFormed : ∃ i, decode ⟨.frame, [0x20, 0x00, 0x0A, 0xE1, 0x4F]⟩ = .ok i := ⟨_, rfl⟩
theorem witness_StepRunsTheDecodedInstruction :
    polling.rst = false ∧ decode polling.fetch = .ok .stRxPoll ∧ polling.issued = none ∧
    (∀ t l i c, polling.req ≠ .encodeHeader t l i c) ∧ (∀ h, polling.req ≠ .decodeHeader h) := by
  refine ⟨rfl, rfl, rfl, ?_, ?_⟩ <;> intros <;> intro h <;> cases h
theorem witness_ResetInputTakesEveryRegister : { polling with rst := true }.rst = true := rfl
theorem witness_EveryStepKeepsTheInvariants : Inv sendStart ∧ ∃ t, step sendStart = .next t :=
  ⟨witness_inv_sendStart, _, rfl⟩
theorem witness_EveryStepKeepsTheInvariants_reset :
    Inv { polling with rst := true } ∧ ∃ t, step { polling with rst := true } = .next t :=
  ⟨by constructor <;> decide, _, rfl⟩
theorem witness_NoStepStops : Inv polling := witness_inv_polling
theorem witness_AccessOutsideABufferFaults :
    let s := { at' .txAssert with txLen := 65, txOff := 49, byteIx := 16, fLen := 17, rxLen := 47 }
    0 < min 16 (s.txLen - s.txOff) ∧ s.cfg.txCap < s.txOff + min 16 (s.txLen - s.txOff) ∧
      s.cfg.txCap ≤ { s with txOff := 48 }.txOff + s.byteIx ∧ 16 ≤ s.byteIx ∧ 16 < s.fLen ∧
      s.rxLen + s.fLen ≤ s.cfg.rxCap := by decide
theorem witness_BuffersStayCanonical :
    sendStart.txbuf.wf = true ∧ sendStart.rxbuf.wf = true ∧ sendStart.fPay.wf = true ∧ ∃ t, step sendStart = .next t :=
  ⟨by decide, by decide, by decide, _, rfl⟩
theorem witness_OneLinkEventUnderSelectDiscipline :
    (Inv (at' .idle) ∧ after (step (at' .idle)) State.trace = some []) ∧
    (Inv sendStart ∧ after (step sendStart) State.trace = some [.selAssert]) ∧
    (Inv { polling with err := .readTimeout, st := .failRelease } ∧
      after (step { polling with err := .readTimeout, st := .failRelease }) State.trace = some [.selRelease]) ∧
    (Inv { polling with env := { State.reset.env with levels := [true] } } ∧
      after (step { polling with env := { State.reset.env with levels := [true] } }) State.trace =
        some [.ready true]) := by
  refine ⟨⟨witness_inv_idle, rfl⟩, ⟨witness_inv_sendStart, rfl⟩, ⟨?_, rfl⟩, ⟨?_, rfl⟩⟩ <;> constructor <;> decide
theorem witness_RegistersAreWrittenWhereTheRulesSay :
    let s := at' .rxTogDelay1
    s.rst = false ∧ s.issued = none ∧ (∃ t, step s = .next t) ∧ s.st ≠ .idle ∧ s.st ≠ .done ∧ s.st ≠ .rxAssert ∧
      s.st ≠ .rxAppend ∧ s.st ≠ .txSize ∧ s.st ≠ .txPayload ∧ s.st ≠ .rxSize ∧ s.st ≠ .rxPayload ∧ s.st ≠ .txAssert ∧ s.st ≠ .txRelease ∧ s.st ≠ .txNrRelease ∧ s.st ≠ .rxTogRelease ∧
      s.st ≠ .rxTogAssert :=
  ⟨rfl, rfl, ⟨_, rfl⟩, by decide⟩
theorem witness_ErrorsArriveOnlyWhereDetected_entry :
    let s := { at' .idle with req := .execute 0 (List.replicate 65 0) }
    s.rst = false ∧ s.issued = none ∧ ∃ t, step s = .next t ∧ t.err ≠ s.err ∧ t.err ≠ .ok :=
  ⟨rfl, rfl, _, rfl, by decide, by decide⟩
theorem witness_ErrorsArriveOnlyWhereDetected_write :
    let s := { at' .txNrRelease with attempts := 25 }
    s.rst = false ∧ s.issued = none ∧ ∃ t, step s = .next t ∧ t.err ≠ s.err ∧ t.err ≠ .ok :=
  ⟨rfl, rfl, _, rfl, by decide, by decide⟩
theorem witness_ErrorsArriveOnlyWhereDetected_read :
    let s := { at' .rxPoll with tRx := 15, now := 1015 }
    s.rst = false ∧ s.issued = none ∧ ∃ t, step s = .next t ∧ t.err ≠ s.err ∧ t.err ≠ .ok :=
  ⟨rfl, rfl, _, rfl, by decide, by decide⟩
theorem witness_ErrorsArriveOnlyWhereDetected_type :
    let s := answering .rxType [0x40]
    s.rst = false ∧ s.issued = none ∧ ∃ t, step s = .next t ∧ t.err ≠ s.err ∧ t.err ≠ .ok :=
  ⟨rfl, rfl, _, rfl, by decide, by decide⟩
theorem witness_ErrorsArriveOnlyWhereDetected_overflow :
    let s := { at' .rxAppend with rxLen := 64, fLen := 1 }
    s.rst = false ∧ s.issued = none ∧ ∃ t, step s = .next t ∧ t.err ≠ s.err ∧ t.err ≠ .ok :=
  ⟨rfl, rfl, _, rfl, by decide, by decide⟩
theorem witness_OnlyResetReturnsToIdle :
    (∃ t, step (at' .idle) = .next t ∧ t.st = .idle) ∧ polling.issued = none ∧
    ∃ t, step { polling with rst := true } = .next t ∧ t.st = .idle :=
  ⟨⟨_, rfl, rfl⟩, rfl, _, rfl, rfl⟩
theorem witness_ReceivedIdInfluencesNothing :
    (answering .rxIdlo [0x34]).issued = none ∧ ∃ t, step (answering .rxIdlo [0x34]) = .next t := ⟨rfl, _, rfl⟩
theorem witness_CommandIdIsTestedByNoRule :
    (let s := answering .txIdlo [0x00]
     s.rst = false ∧ s.issued = none ∧ s.st = .txIdlo ∧ s.st ≠ .idle ∧ s.st ≠ .done ∧ s.st ≠ .txAssert ∧
       ∃ t, step s = .next t) ∧
    (let s := answering .txIdhi [0x00]
     s.rst = false ∧ s.issued = none ∧ s.st = .txIdhi ∧ ∃ t, step s = .next t) ∧
    (polling.st ≠ .txIdlo ∧ polling.st ≠ .txIdhi ∧ ∃ t, step polling = .next t) :=
  ⟨⟨rfl, rfl, rfl, by decide, by decide, by decide, _, rfl⟩, ⟨rfl, rfl, rfl, _, rfl⟩, by decide, by decide, _, rfl⟩
theorem witness_AnswersWhileSendingAreDiscarded :
    let s := { sendStart with st := .txPayload, sel := true, attempts := 1, fLen := 3, byteIx := 2 }
    Inv s ∧ s.rst = false ∧ s.st = .txPayload ∧
      ∃ t, step { s with env := { s.env with bytes := 0x00 :: [] } } = .next t :=
  ⟨by constructor <;> decide, rfl, rfl, _, rfl⟩
/-- Nine quiet step inputs, one tick each: a frame of three bytes. -/
theorem witness_SendStatesRefineTheFrameRow :
    let s := { sendStart with
      env := { State.reset.env with bytes := [0x00], inputs := List.replicate 9 ⟨.none, false, 1⟩ } }
    Inv s ∧ s.st = .txAssert ∧ s.rst = false ∧ s.req = .none ∧ s.env.inputs = List.replicate 9 ⟨.none, false, 1⟩ ++ [] ∧
      (List.replicate 9 (⟨.none, false, 1⟩ : StepInput)).length = 6 + s.chunkLen ∧
      quiet (List.replicate 9 ⟨.none, false, 1⟩) ∧ s.env.peerByte ≠ 0xFE :=
  ⟨by constructor <;> decide, rfl, rfl, rfl, rfl, rfl, by simp [quiet], by decide⟩
theorem witness_SendStatesRefineTheFrameRow_empty :
    let s := { at' .txAssert with
      env := { State.reset.env with bytes := [0x00], inputs := List.replicate 6 ⟨.none, false, 1⟩ } }
    Inv s ∧ s.st = .txAssert ∧ s.rst = false ∧ s.req = .none ∧ s.env.inputs = List.replicate 6 ⟨.none, false, 1⟩ ++ [] ∧
      (List.replicate 6 (⟨.none, false, 1⟩ : StepInput)).length = 6 + s.chunkLen ∧
      quiet (List.replicate 6 ⟨.none, false, 1⟩) ∧ s.env.peerByte ≠ 0xFE :=
  ⟨by constructor <;> decide, rfl, rfl, rfl, rfl, rfl, by simp [quiet], by decide⟩
/-- The ceiling's last attempt but one; each waits `T_RETRY`. -/
theorem witness_AttemptCeilingIsExact_below :
    let xs : List StepInput := List.replicate 96 ⟨.none, false, 1⟩
    let s := { sendStart with env := { State.reset.env with bytes := List.replicate 24 0xFE ++ [], inputs := xs } }
    Inv s ∧ s.st = .txAssert ∧ s.attempts = 0 ∧ s.rst = false ∧ s.req = .none ∧ 24 ≤ 25 ∧ 1 ≤ 24 ∧
      s.env.bytes = List.replicate 24 0xFE ++ [] ∧ s.env.inputs = xs ++ [] ∧ quiet xs ∧
      (∀ x ∈ xs, s.cfg.tRetry ≤ x.advance) ∧ 24 < 25 ∧ xs.length = 4 * 24 :=
  ⟨by constructor <;> decide, rfl, rfl, rfl, rfl, by decide, by decide, rfl, rfl, by simp [quiet],
    by simp [sendStart, at', ref], by decide, rfl⟩
/-- The ceiling itself. -/
theorem witness_AttemptCeilingIsExact_at :
    let xs : List StepInput := List.replicate 99 ⟨.none, false, 1⟩
    let s := { sendStart with env := { State.reset.env with bytes := List.replicate 25 0xFE ++ [], inputs := xs } }
    Inv s ∧ s.st = .txAssert ∧ s.attempts = 0 ∧ s.rst = false ∧ s.req = .none ∧ 25 ≤ 25 ∧ 1 ≤ 25 ∧
      s.env.bytes = List.replicate 25 0xFE ++ [] ∧ s.env.inputs = xs ++ [] ∧ quiet xs ∧
      (∀ x ∈ xs, s.cfg.tRetry ≤ x.advance) ∧ xs.length = 99 :=
  ⟨by constructor <;> decide, rfl, rfl, rfl, rfl, by decide, by decide, rfl, rfl, by simp [quiet],
    by simp [sendStart, at', ref], rfl⟩
/-- A response of a full frame and an empty one. -/
theorem witness_ResponseIsTheConcatenationOfPayloads :
    let ps : List Piece := [⟨[], 0x0A00, 3, List.replicate 16 0x61⟩, ⟨[], 0xBEEF, 0, []⟩]
    let xs : List StepInput := List.replicate 29 ⟨.none, false, 5⟩
    let s := { polling with
      env := { State.reset.env with bytes := messageBytes ps ++ [], levels := messageLevels ps ++ [], inputs := xs } }
    Inv s ∧ s.st = .rxPoll ∧ s.rxLen = 0 ∧ s.rst = false ∧ s.req = .none ∧ ps ≠ [] ∧
      (∀ p ∈ ps, p.payload.length ≤ 16) ∧ (messagePayload ps).length ≤ s.cfg.rxCap ∧
      s.env.bytes = messageBytes ps ++ [] ∧ s.env.levels = messageLevels ps ++ [] ∧
      s.env.inputs = xs ++ [] ∧ xs.length = (ps.map pieceSteps).sum + 1 ∧ quiet xs ∧
      s.now + elapsed xs - s.tRx < s.cfg.readTimeout ∧
      ∀ p ∈ ps, ∀ w ∈ p.before, w ≠ .notReady →
        ∀ x ∈ xs, s.cfg.tRxtogShort ≤ x.advance ∧ s.cfg.tRxtogMand ≤ x.advance :=
  ⟨by constructor <;> decide, rfl, rfl, rfl, rfl, by simp, by simp, by decide, rfl, rfl, by simp, by decide,
    by simp [quiet], by decide, by simp [polling, at', ref]⟩
/-- A sample of a line not asserted and a sentinel of each kind, before the first frame and between two. -/
theorem witness_ResponseIsTheConcatenationOfPayloads_after_sentinels :
    let ps : List Piece := [⟨[.notReady, .deviceNotReady], 0x0A00, 0, [0x61]⟩, ⟨[.readOverflow], 0x0A00, 0, [0x62]⟩]
    let xs : List StepInput := List.replicate 28 ⟨.none, false, 5⟩
    let s := { polling with
      env := { State.reset.env with bytes := messageBytes ps ++ [], levels := messageLevels ps ++ [], inputs := xs } }
    Inv s ∧ s.st = .rxPoll ∧ s.rxLen = 0 ∧ s.rst = false ∧ s.req = .none ∧ ps ≠ [] ∧
      (∀ p ∈ ps, p.payload.length ≤ 16) ∧ (messagePayload ps).length ≤ s.cfg.rxCap ∧
      s.env.bytes = messageBytes ps ++ [] ∧ s.env.levels = messageLevels ps ++ [] ∧
      s.env.inputs = xs ++ [] ∧ xs.length = (ps.map pieceSteps).sum + 1 ∧ quiet xs ∧
      s.now + elapsed xs - s.tRx < s.cfg.readTimeout ∧
      ∀ p ∈ ps, ∀ w ∈ p.before, w ≠ .notReady →
        ∀ x ∈ xs, s.cfg.tRxtogShort ≤ x.advance ∧ s.cfg.tRxtogMand ≤ x.advance :=
  ⟨by constructor <;> decide, rfl, rfl, rfl, rfl, by simp, by simp, by decide, rfl, rfl, by simp, by decide,
    by simp [quiet], by decide, by simp [polling, at', ref]⟩
theorem witness_ElapsedWindowEndsInReadTimeout :
    let s := { polling with now := 1015, env := { State.reset.env with inputs := [⟨.none, false, 1⟩] } }
    Inv s ∧ s.st = .rxPoll ∧ s.rst = false ∧ s.env.inputs = ⟨.none, false, 1⟩ :: [] ∧
      s.now - s.tRx ≥ s.cfg.readTimeout :=
  ⟨by constructor <;> decide, rfl, rfl, rfl, by decide⟩

end Sys2Proof.Tests
end

section
/-! What the operations of the block do to the select line and to the event trace. -/

namespace Sys2Proof.Machine

@[simp] theorem State.sleepIn_trace (s : State) (d : Delay) (stay : St) : (s.sleepIn d stay).trace = s.trace := rfl

@[simp] theorem State.enter_trace (s : State) (id : Half) (payload : List Byte) :
    (s.enter id payload).trace = s.trace := by
  by_cases h : s.cfg.txCap < payload.length
  · rw [State.enter_of_gt h]
  · rw [State.enter_of_le (Nat.le_of_not_lt h)]

@[simp] theorem State.entryStep_trace (s : State) : s.entryStep.trace = s.trace := by
  cases h : s.req with
  | execute id payload => rw [State.entryStep_of_execute h, State.enter_trace]
  | none | encodeHeader | decodeHeader => rw [State.entryStep_of_no_execute (by simp [h])]

@[simp] theorem State.notReady_sel (s : State) : s.notReady.sel = false := by
  by_cases h : 25 ≤ s.attempts
  · rw [State.notReady_of_ge h, State.releaseSelect_sel]
  · rw [State.notReady_of_lt (Nat.lt_of_not_le h), State.releaseSelect_sel]

@[simp] theorem State.notReady_trace (s : State) : s.notReady.trace = .selRelease :: s.trace := by
  by_cases h : 25 ≤ s.attempts
  · rw [State.notReady_of_ge h, State.releaseSelect_trace]
  · rw [State.notReady_of_lt (Nat.lt_of_not_le h), State.releaseSelect_trace]

@[simp] theorem State.takeType_sel (s : State) (r : Byte) : (s.takeType r).sel = s.sel := by
  unfold State.takeType
  cases typeClass r <;> rfl

@[simp] theorem State.takeType_trace (s : State) (r : Byte) : (s.takeType r).trace = .xfer 0xFF r :: s.trace := by
  unfold State.takeType
  cases typeClass r <;> rfl

@[simp] theorem State.finishFrame_trace (s : State) : s.finishFrame.trace = s.trace := by
  by_cases h : s.cfg.rxCap < s.rxLen + s.fLen
  · rw [State.finishFrame_of_gt h]
  · rw [State.finishFrame_of_le (Nat.le_of_not_lt h), State.append]

end Sys2Proof.Machine
end

section
/-! The select discipline (R10, R32, R130, R131): what a step may do on the link, and that each row of `st` does no
more, select being in the step's first state as I6 says. -/

namespace Sys2Proof.Safety

open Sys2Proof.Machine

/-- What a disciplined step does on the link from `s` to `t`: no event, or one that finds and leaves select as the
event needs it. -/
inductive LinkMove (s t : State) : Prop where
  | silent (htrace : t.trace = s.trace)
  /-- A transfer or a sample. -/
  | access {e : LinkEvent} (hs : s.sel = true) (hsel : t.sel = s.sel) (htrace : t.trace = e :: s.trace)
      (he : needsSelect e = true)
  | select (hs : s.sel = false) (ht : t.sel = true) (htrace : t.trace = .selAssert :: s.trace)
  | deselect (hs : s.sel = true) (ht : t.sel = false) (htrace : t.trace = .selRelease :: s.trace)

theorem LinkMove.events {s t : State} (h : LinkMove s t) :
    t.trace = s.trace ∨
    ∃ e, t.trace = e :: s.trace ∧
      (needsSelect e = true → s.sel = true ∧ t.sel = true) ∧
      (e = .selAssert → s.sel = false ∧ t.sel = true) ∧
      (e = .selRelease → s.sel = true ∧ t.sel = false) := by
  cases h with
  | silent htrace => exact .inl htrace
  | @access e hs hsel htrace he =>
    refine .inr ⟨e, htrace, fun _ => ⟨hs, hsel.trans hs⟩, ?_, ?_⟩
    · rintro rfl; cases he
    · rintro rfl; cases he
  | select hs ht htrace => exact .inr ⟨_, htrace, nofun, fun _ => ⟨hs, ht⟩, nofun⟩
  | deselect hs ht htrace => exact .inr ⟨_, htrace, nofun, nofun, fun _ => ⟨hs, ht⟩⟩

/-- What a step does around its instruction touches neither select nor the trace. -/
theorem LinkMove.of_begun {s u : State} (h : LinkMove s.begun u) : LinkMove s u.nextInputs := by
  cases h with
  | silent htrace => exact .silent htrace
  | access hs hsel htrace he => exact .access hs hsel htrace he
  | select hs ht htrace => exact .select hs ht htrace
  | deselect hs ht htrace => exact .deselect hs ht htrace

/-- An outcome of a step from `s` that, where it is a next state, keeps the discipline. -/
def Disciplined (s : State) (o : Host.Outcome State Fault Refusal) : Prop :=
  ∀ u, o = .next u → LinkMove s u

theorem LinkMove.next {s t : State} (h : LinkMove s t) : Disciplined s (.next t) := by
  rintro u ⟨⟩
  exact h

/-- A state that faults outside a buffer's bounds only has to be disciplined inside them. -/
theorem LinkMove.next_or_fault {s t : State} {c : Prop} [Decidable c] {f : Fault} (h : LinkMove s t) :
    Disciplined s (if c then .next t else .fault f) := by
  split
  · exact h.next
  · rintro u ⟨⟩

/-- The poll (R186): past the window it fails without a sample, inside it samples once. -/
theorem execStRxPoll_disciplined {s : State} (hs : s.sel = true) : Disciplined s (execStRxPoll s) := by
  refine LinkMove.next ?_
  split
  · exact .silent rfl
  · exact .access hs rfl rfl rfl

/-- Every row of `st` keeps the discipline where select is as I6 says. -/
theorem exec_stRow_disciplined {s : State} (x : St) (hs : s.sel = selectIn x) :
    Disciplined s (exec (stRow x) s) := by
  cases x with
  | idle | done => exact LinkMove.next (.silent s.entryStep_trace)
  | txNrDelay | txIfDelay | rxSettle | rxTogDelay1 | rxTogDelay2 => exact LinkMove.next (.silent (s.sleepIn_trace _ _))
  | rxAppend => exact LinkMove.next_or_fault (.silent s.finishFrame_trace)
  | txAssert => exact LinkMove.next_or_fault (.select hs rfl rfl)
  | rxAssert | rxTogAssert => exact LinkMove.next (.select hs rfl rfl)
  | txNrRelease => exact LinkMove.next (.deselect hs s.notReady_sel s.notReady_trace)
  | txRelease | rxTogRelease | rxDoneRelease | failRelease => exact LinkMove.next (.deselect hs rfl rfl)
  | txType | txIdlo | txIdhi | txSize | txFill | rxIdlo | rxIdhi | rxSize =>
    exact LinkMove.next (.access hs rfl rfl rfl)
  | txPayload | rxPayload => exact LinkMove.next_or_fault (.access hs rfl rfl rfl)
  | rxType => exact LinkMove.next (.access hs (State.takeType_sel ..) (State.takeType_trace ..) rfl)
  | rxPoll => exact execStRxPoll_disciplined hs

/-- A step from a state that meets the invariants is disciplined; the reset input performs no event (R270). -/
theorem step_linkMove {s t : State} (hinv : Inv s) (h : step s = .next t) : LinkMove s t := by
  obtain ⟨-, rfl⟩ | ⟨-, i, u, hdecode, hexec, rfl⟩ := step_cases h
  · exact .silent s.applyReset_trace
  · obtain rfl : stRow s.st = i := Except.ok.inj ((decode_fetch hinv.issued).symm.trans hdecode)
    exact (exec_stRow_disciplined (s := s.begun) s.st hinv.sel_eq u hexec).of_begun

/-- Settles O50: the invariants fix the row a step runs and the select line it finds (I6), and each row's one event
agrees with both. -/
theorem oneLinkEventUnderSelectDiscipline : Obligations.OneLinkEventUnderSelectDiscipline :=
  fun _ _ hinv h => (step_linkMove hinv h).events

end Sys2Proof.Safety
end

section
/-! The decoder on the encoder's codes (R80 to R94): each port's reading of the code that `encode` writes for it. -/

namespace Sys2Proof

open Sys2Proof.Machine

/-! ## The size byte FCT sends -/

theorem sizeUnused_packSize {n : Nat} (cont : Bool) (h : n ≤ 16) : sizeUnused (packSize n cont) = 0 := by
  have e := packSize_eq_sizeBits (BitVec.ofNat 5 n) cont
  rw [BitVec.toNat_ofNat, Nat.mod_eq_of_lt (by omega)] at e
  rw [e, sizeUnused_sizeBits]

/-- A size byte FCT sends is never the filler that marks the no-payload frame, whose unused bits are set (R86). -/
theorem packSize_ne_filler {n : Nat} (cont : Bool) (h : n ≤ 16) : packSize n cont ≠ Config.filler := by
  intro e
  have hu := sizeUnused_packSize cont h
  rw [e] at hu
  exact absurd hu (by decide)

/-! ## Frames -/

theorem decode_encode_frameOutPayload {id : Half} {more : Bool} {payload : List Byte}
    (hpos : 1 ≤ payload.length) (hle : payload.length ≤ Config.maxPayload) :
    decode (encode (.frameOutPayload id more payload)) = .ok (.frameOutPayload id more payload) := by
  have hle : payload.length ≤ 16 := hle
  simp [encode, decode, decodeFrame, packSize_ne_filler more hle, sizeUnused_packSize more hle,
    unpackLen_packSize more hle, unpackCont_packSize more hle, hpos, Config.maxPayload, hle]

theorem decode_encode_frameOutEmpty (id : Half) :
    decode (encode (.frameOutEmpty id)) = .ok (.frameOutEmpty id) := by
  simp [encode, decode, decodeFrame]

theorem decode_encode_frameInResponse {id : Half} {cont : Bool} {unused : BitVec 2} {len : BitVec 5}
    {payload : List Byte} (hlen : payload.length = clampLen len.toNat) :
    decode (encode (.frameInResponse id cont unused len payload)) =
      .ok (.frameInResponse id cont unused len payload) := by
  have hne : Config.tResponse ≠ Config.tCommand := by decide
  simp [encode, decode, decodeFrame, hne, unpackLen_sizeBits, unpackCont_sizeBits, sizeUnused_sizeBits,
    sizeLen_sizeBits, hlen]

/-! ## Wire fields -/

/-- A byte without a row of its own has the default row (R81). -/
theorem decodeType_of_not_named {t : Byte} (h : t ∉ namedTypes) : decodeType t = .typeOther t := by
  simp only [namedTypes, List.mem_cons, List.not_mem_nil, or_false, not_or] at h
  obtain ⟨hcommand, hresponse, halert, herror, hnotReady, hoverflow⟩ := h
  simp only [decodeType, hcommand, hresponse, halert, herror, hnotReady, hoverflow, if_false]

theorem decodeSize_sizeBits (cont : Bool) (unused : BitVec 2) (len : BitVec 5) :
    decodeSize (sizeBits cont unused len) = .sizeByte cont unused len := by
  rw [decodeSize, unpackCont_sizeBits, sizeUnused_sizeBits, sizeLen_sizeBits]

/-! ## The host port -/

theorem decodeFlag_flagByte (b : Bool) : decodeFlag (flagByte b) = .ok b := by
  cases b <;> rfl

theorem decode_encode_encodeHeader (typ : Byte) (id : Half) (length : Byte) (cont : Bool) :
    decode (encode (.encodeHeader typ id length cont)) = .ok (.encodeHeader typ id length cont) := by
  simp [encode, decode, decodeHost, decodeFlag_flagByte, Except.map]

theorem decode_encode_execute (commandId : Half) (payload : List Byte) :
    decode (encode (.execute commandId payload)) = .ok (.execute commandId payload) := by
  simp [encode, decode, decodeHost]

/-- Settles O39, by cases on the row: the ports whose codes have fields cite the rules above, a code without fields
is read by computation. -/
theorem decodeUndoesEncode : Obligations.DecodeUndoesEncode := by
  intro i hwf
  cases i with
  | frameOutPayload id more payload =>
    simp only [Instr.wellFormed, Bool.and_eq_true, decide_eq_true_eq] at hwf
    obtain ⟨hpos, hle⟩ := hwf
    exact decode_encode_frameOutPayload hpos hle
  | frameOutEmpty id => exact decode_encode_frameOutEmpty id
  | frameInResponse id cont unused len payload =>
    exact decode_encode_frameInResponse (by simpa [Instr.wellFormed, clampLen] using hwf)
  | typeOther t =>
    have ht : t ∉ namedTypes := by simpa [Instr.wellFormed] using hwf
    exact congrArg Except.ok (decodeType_of_not_named ht)
  | sizeByte cont unused len => exact congrArg Except.ok (decodeSize_sizeBits cont unused len)
  | encodeHeader typ id length cont => exact decode_encode_encodeHeader typ id length cont
  | execute commandId payload => exact decode_encode_execute commandId payload
  | readBytes n => exact decode_readCodes n
  | sleep d => cases d <;> rfl
  | _ => rfl

/-- Settles O41, reading each word by computation. -/
theorem specWordsDecode : Obligations.SpecWordsDecode :=
  ⟨rfl, rfl, rfl, rfl, rfl, rfl, rfl, rfl, rfl⟩

end Sys2Proof
end

section
/-! The step and the state after reset (R10, R21, R39). -/

namespace Sys2Proof.Machine

/-- A request that is no codec operation gives the value output no answer (R114). -/
theorem codecResult_eq_none {req : HostReq} (henc : ∀ t l i c, req ≠ .encodeHeader t l i c)
    (hdec : ∀ h, req ≠ .decodeHeader h) : codecResult req = none := by
  cases req with
  | none | execute => rfl
  | encodeHeader t l i c => exact absurd rfl (henc t l i c)
  | decodeHeader h => exact absurd rfl (hdec h)

/-- A step without the reset input runs the instruction its code decodes to. -/
theorem step_of_decode {s : State} {i : Instr} (hr : s.rst = false) (hd : decode s.fetch = .ok i) :
    step s = finishStep (exec i s.begun) := by
  simp [step, hr, hd]

/-- With nothing put before the block the instruction a step decodes is the row of `st` (R21). -/
theorem decoded_eq_stRow {s : State} {i : Instr} (hi : s.issued = none) (hd : decode s.fetch = .ok i) :
    i = stRow s.st :=
  Except.ok.inj (hd.symm.trans (decode_fetch hi))

/-- Settles O42: the outcome is `finishStep`'s, and with nothing put before the block the code is that of `st`. -/
theorem stepRunsTheDecodedInstruction : Obligations.StepRunsTheDecodedInstruction := by
  intro s i hr hd
  refine ⟨?_, fun hi => ⟨?_, decoded_eq_stRow hi hd⟩, fun hi henc hdec => ?_⟩
  · rw [step_of_decode hr hd]
    cases exec i s.begun <;> rfl
  · rw [State.fetch, hi]
  · exact begun_of_no_codec hi (codecResult_eq_none henc hdec)

/-- Settles O43: `State.reset` gives each register R39's value. -/
theorem resetLeavesTheBlockIdle : Obligations.ResetLeavesTheBlockIdle :=
  ⟨rfl, rfl, rfl, rfl, rfl, rfl, rfl, rfl, rfl, rfl, rfl, rfl, rfl, rfl, rfl⟩

end Sys2Proof.Machine
end

section
/-! The invariants sorted by what they depend on: the bounds, which no value of `st` bears on, the select line, and
what is due in each state. -/

namespace Sys2Proof.Safety

open Sys2Proof.Machine

/-- The invariants on which the value of `st` has no bearing: I2 to I5, the parameters, the buffers, the clock
samples. -/
structure Bounds (s : State) : Prop where
  txCap_pos : 1 ≤ s.cfg.txCap
  rxCap_pos : 1 ≤ s.cfg.rxCap
  issued : s.issued = none
  txbuf_wf : s.txbuf.wf = true
  rxbuf_wf : s.rxbuf.wf = true
  fPay_wf : s.fPay.wf = true
  txbuf_in : inside s.txbuf s.cfg.txCap = true
  rxbuf_in : inside s.rxbuf s.cfg.rxCap = true
  fPay_in : inside s.fPay Config.maxPayload = true
  txOff_le : s.txOff ≤ s.txLen
  txLen_le : s.txLen ≤ s.cfg.txCap
  rxLen_le : s.rxLen ≤ s.cfg.rxCap
  fLen_le : s.fLen ≤ Config.maxPayload
  byteIx_le : s.byteIx ≤ s.fLen
  attempts_le : s.attempts ≤ Config.writeAttemptMax
  tMark_le : s.tMark ≤ s.now
  tRx_le : s.tRx ≤ s.now

/-- What holds while the message goes out: no error, the offset aligned, a frame left to send (R152, R164, R249). -/
def Sends (s : State) : Prop :=
  s.err = .ok ∧ 16 ∣ s.txOff ∧ (s.txLen = 0 ∨ s.txOff < s.txLen)

/-- What holds while the response comes in: no error, the whole message sent (R160, R249). -/
def Receives (s : State) : Prop :=
  s.err = .ok ∧ s.txOff = s.txLen

/-- What the invariants ask of the registers in each state, beside the bounds and the select line. -/
def Due (s : State) : St → Prop
  | .idle | .done => True
  | .txAssert | .txNrDelay => Sends s ∧ s.attempts < Config.writeAttemptMax
  | .txIfDelay => Sends s ∧ s.attempts < Config.writeAttemptMax ∧ s.txOff < s.txLen
  | .txType | .txIdlo | .txIdhi => Sends s ∧ s.fLen = s.chunkLen
  | .txSize => Sends s ∧ s.fLen = s.chunkLen ∧ s.txOff < s.txLen
  | .txPayload => Sends s ∧ s.fLen = s.chunkLen ∧ s.txOff < s.txLen ∧ s.byteIx < s.chunkLen
  | .txNrRelease | .txFill | .txRelease => Sends s
  | .rxPayload => Receives s ∧ s.byteIx < s.fLen
  | .rxSettle | .rxAssert | .rxPoll | .rxType | .rxTogRelease | .rxTogDelay1 | .rxTogAssert | .rxTogDelay2
  | .rxIdlo | .rxIdhi | .rxSize | .rxAppend | .rxDoneRelease => Receives s
  | .failRelease => s.txOff = s.txLen ∧ s.err ≠ .ok

theorem Inv.bounds {s : State} (h : Inv s) : Bounds s := { h with }

theorem Inv.sends {s : State} {x : St} (h : Inv s) (hx : s.st = x) (hs : sending x = true) : Sends s := by
  subst hx
  refine ⟨h.no_error ?_ ?_ ?_, h.aligned hs, h.remains hs⟩ <;>
  · intro e
    rw [e] at hs
    cases hs

theorem Inv.receives {s : State} {x : St} (h : Inv s) (hx : s.st = x) (hidle : x ≠ .idle) (hdone : x ≠ .done)
    (hfail : x ≠ .failRelease) (hsending : sending x = false) : Receives s := by
  subst hx
  exact ⟨h.no_error hidle hdone hfail, h.sent hidle hdone hsending⟩

/-- What the invariants ask of the state `st` names. -/
theorem Inv.due {s : State} {x : St} (h : Inv s) (hx : s.st = x) : Due s x := by
  have hsends := h.sends hx
  cases x with
  | idle | done => trivial
  | txAssert | txNrDelay => exact ⟨hsends rfl, h.attempt_left (by simp [hx])⟩
  | txIfDelay => exact ⟨hsends rfl, h.attempt_left (by simp [hx]), h.has_payload (by simp [hx])⟩
  | txType | txIdlo | txIdhi => exact ⟨hsends rfl, h.sending_len (by simp [hx])⟩
  | txSize => exact ⟨hsends rfl, h.sending_len (by simp [hx]), h.has_payload (by simp [hx])⟩
  | txPayload =>
    exact ⟨hsends rfl, h.sending_len (by simp [hx]), h.has_payload (by simp [hx]), h.sending_ix hx⟩
  | txNrRelease | txFill | txRelease => exact hsends rfl
  | rxPayload => exact ⟨h.receives hx nofun nofun nofun rfl, h.receiving_ix hx⟩
  | failRelease => exact ⟨h.sent (by simp [hx]) (by simp [hx]) (by simp [hx, sending]), h.error_taken hx⟩
  | rxSettle | rxAssert | rxPoll | rxType | rxTogRelease | rxTogDelay1 | rxTogAssert | rxTogDelay2 | rxIdlo | rxIdhi
  | rxSize | rxAppend | rxDoneRelease => exact h.receives hx nofun nofun nofun rfl

theorem Due.sends {s : State} {x : St} (h : Due s x) (hx : sending x = true) : Sends s := by
  cases x with
  | txAssert | txNrDelay | txIfDelay | txType | txIdlo | txIdhi | txSize | txPayload => exact h.1
  | txNrRelease | txFill | txRelease => exact h
  | _ => cases hx

theorem Due.sent {s : State} {x : St} (h : Due s x) (hidle : x ≠ .idle) (hdone : x ≠ .done)
    (hx : sending x = false) : s.txOff = s.txLen := by
  cases x with
  | idle => exact absurd rfl hidle
  | done => exact absurd rfl hdone
  | failRelease => exact h.1
  | rxPayload => exact h.1.2
  | rxSettle | rxAssert | rxPoll | rxType | rxTogRelease | rxTogDelay1 | rxTogAssert | rxTogDelay2 | rxIdlo | rxIdhi
  | rxSize | rxAppend | rxDoneRelease => exact h.2
  | _ => cases hx

theorem Due.no_error {s : State} {x : St} (h : Due s x) (hidle : x ≠ .idle) (hdone : x ≠ .done)
    (hfail : x ≠ .failRelease) : s.err = .ok := by
  cases x with
  | idle => exact absurd rfl hidle
  | done => exact absurd rfl hdone
  | failRelease => exact absurd rfl hfail
  | rxPayload => exact h.1.1
  | rxSettle | rxAssert | rxPoll | rxType | rxTogRelease | rxTogDelay1 | rxTogAssert | rxTogDelay2 | rxIdlo | rxIdhi
  | rxSize | rxAppend | rxDoneRelease => exact h.1
  | _ => exact (Due.sends h rfl).1

/-- The invariants put together again, for a state whose `st` is known. -/
theorem Inv.of_due {s : State} {x : St} (hx : s.st = x) (hb : Bounds s) (hsel : s.sel = selectIn x)
    (hd : Due s x) : Inv s := by
  subst hx
  exact { hb with
    sel_eq := hsel
    aligned := fun hs => (hd.sends hs).2.1
    remains := fun hs => (hd.sends hs).2.2
    sent := hd.sent
    attempt_left := by rintro (e | e | e) <;> simp only [e, Due] at hd <;> simp [hd]
    has_payload := by rintro (e | e | e) <;> simp only [e, Due] at hd <;> simp [hd]
    sending_len := by rintro (e | e | e | e | e) <;> simp only [e, Due] at hd <;> simp [hd]
    sending_ix := fun e => by simp only [e, Due] at hd; simp [hd]
    receiving_ix := fun e => by simp only [e, Due] at hd; simp [hd]
    no_error := hd.no_error
    error_taken := fun e => by simp only [e, Due] at hd; exact hd.2 }

/-- The code taken and the codec's answer (R114), with which a step begins, bear on no invariant. -/
theorem Inv.begun {s : State} (h : Inv s) : Inv s.begun := { h with issued := rfl }

/-- The next step's inputs keep the invariants, since the clock does not run back (R135). -/
theorem Inv.nextInputs {s : State} (h : Inv s) : Inv s.nextInputs :=
  { h with
    tMark_le := Nat.le_trans h.tMark_le (Nat.le_add_right ..)
    tRx_le := Nat.le_trans h.tRx_le (Nat.le_add_right ..) }

/-- Clearing the scratch and the counters, as entry and reset do, keeps the bounds. -/
theorem Bounds.cleared {s : State} (h : Bounds s) :
    Bounds { s with fLen := 0, fPay := [], rxLen := 0, attempts := 0, txOff := 0, byteIx := 0 } :=
  { h with
    fPay_wf := rfl
    fPay_in := rfl
    txOff_le := Nat.zero_le _
    rxLen_le := Nat.zero_le _
    fLen_le := Nat.zero_le _
    byteIx_le := Nat.le_refl 0
    attempts_le := Nat.zero_le _ }

/-- The reset input meets the invariants, whatever the buffers then hold (R270). -/
theorem Inv.applyReset {s : State} (h : Inv s) : Inv s.applyReset := by
  obtain ⟨htx, hrx, hpay⟩ := s.applyReset_buffers_wf
  refine .of_due (x := .idle) rfl ?_ rfl trivial
  exact { h.bounds.cleared with
    issued := rfl
    txbuf_wf := htx
    rxbuf_wf := hrx
    fPay_wf := hpay
    txbuf_in := by rw [State.applyReset_txbuf]; exact inside_ofIndex ..
    rxbuf_in := by rw [State.applyReset_rxbuf]; exact inside_ofIndex ..
    fPay_in := by rw [State.applyReset_fPay]; exact inside_ofIndex ..
    txOff_le := Nat.le_refl 0
    txLen_le := Nat.zero_le _
    tMark_le := Nat.zero_le _
    tRx_le := Nat.zero_le _ }

/-- Settles O45: nothing is counted and nothing is listed after reset, and the capacities are at least 1 (R7). -/
theorem resetMeetsTheInvariants : Obligations.ResetMeetsTheInvariants := by
  refine Inv.of_due (x := .idle) rfl ?_ rfl trivial
  exact {
    txCap_pos := Nat.le_add_left ..
    rxCap_pos := Nat.le_add_left ..
    issued := rfl
    txbuf_wf := rfl
    rxbuf_wf := rfl
    fPay_wf := rfl
    txbuf_in := rfl
    rxbuf_in := rfl
    fPay_in := rfl
    txOff_le := Nat.le_refl 0
    txLen_le := Nat.zero_le _
    rxLen_le := Nat.zero_le _
    fLen_le := Nat.zero_le _
    byteIx_le := Nat.le_refl 0
    attempts_le := Nat.zero_le _
    tMark_le := Nat.le_refl 0
    tRx_le := Nat.le_refl 0 }

end Sys2Proof.Safety
end

section
/-! What every outcome of a row answers, where it is a next state. -/

namespace Sys2Proof.Machine

/-- Where the outcome is a next state, that state has the property. -/
def Yields (o : Host.Outcome State Fault Refusal) (P : State → Prop) : Prop :=
  ∀ u, o = .next u → P u

theorem Yields.next {P : State → Prop} {t : State} (h : P t) : Yields (.next t) P := by
  rintro u ⟨⟩
  exact h

/-- A row that faults outside a buffer answers its next state inside it only. -/
theorem Yields.guarded {P : State → Prop} {t : State} {c : Prop} [Decidable c] {f : Fault} (h : c → P t) :
    Yields (if c then .next t else .fault f) P := by
  split
  · exact .next (h ‹c›)
  · rintro u ⟨⟩

/-- What a row that answers a next state yields carries over to the step of the block around it. -/
theorem yields_of_step {P : State → Prop} {s t : State} (hr : s.rst = false) (hi : s.issued = none)
    (h : step s = .next t) (hrow : Yields (exec (stRow s.st) s.begun) P) : ∃ u, P u ∧ t = u.nextInputs := by
  rw [step_of_st hr hi] at h
  cases he : exec (stRow s.st) s.begun with
  | next u =>
    rw [he] at h
    exact ⟨u, hrow u he, (Host.Outcome.next.inj h).symm⟩
  | fault f => rw [he] at h; cases h
  | refused r => rw [he] at h; cases h

/-- `RX_POLL` past the window fails without a sample (R186, R248). -/
theorem execStRxPoll_of_elapsed {s : State} (h : s.now - s.tRx ≥ s.cfg.readTimeout) :
    execStRxPoll s = .next (s.fail .readTimeout true) := by
  rw [execStRxPoll, if_pos h]

/-- `RX_POLL` inside the window samples once (R186). -/
theorem execStRxPoll_of_open {s : State} (h : ¬ s.now - s.tRx ≥ s.cfg.readTimeout) :
    execStRxPoll s = .next (s.sampleReady.goto (if s.env.readyLevel then .rxType else .rxPoll)) := by
  rw [execStRxPoll, if_neg h]

end Sys2Proof.Machine

namespace Sys2Proof.Safety

open Sys2Proof.Machine

/-! ## Moves of the FSM -/

/-- I6 for a state whose `st` is known. -/
theorem Inv.selects {s : State} {x : St} (h : Inv s) (hx : s.st = x) : s.sel = selectIn x :=
  hx ▸ h.sel_eq

/-- A move from state `x` to state `y` keeps the invariants where it keeps the bounds, leaves select as `y` has it, and
turns what is due in `x` into what is due in `y`. -/
theorem Inv.move {s t : State} {x y : St} (h : Inv s) (hx : s.st = x) (hy : t.st = y) (hsel : t.sel = selectIn y)
    (hbounds : Bounds s → Bounds t) (hdue : Due s x → Due t y) : Inv t :=
  .of_due hy (hbounds h.bounds) hsel (hdue (h.due hx))

/-- A move between two states that have select alike, select left as it is. -/
theorem Inv.advance {s t : State} {x y : St} (h : Inv s) (hx : s.st = x) (hy : t.st = y)
    (hsame : selectIn x = selectIn y) (hsel : t.sel = s.sel) (hbounds : Bounds s → Bounds t)
    (hdue : Due s x → Due t y) : Inv t :=
  h.move hx hy (hsel.trans ((h.selects hx).trans hsame)) hbounds hdue

/-- A delay keeps the invariants where what is due after it is due in it. -/
theorem Inv.sleepIn {s : State} {d : Delay} {stay : St} (h : Inv s) (hst : s.st = stay)
    (hsel : selectIn stay = selectIn (delayNext d)) (hdue : Due s stay → Due s (delayNext d)) :
    Inv (s.sleepIn d stay) := by
  obtain ⟨-, e⟩ | ⟨-, e⟩ := s.sleepIn_cases d stay
  · rw [e]
    exact h.advance hst rfl hsel rfl (fun b => { b with }) hdue
  · rw [e]
    exact h.advance hst rfl rfl rfl (fun b => { b with }) id

/-! ## Entry (R151) -/

theorem Inv.enter {s : State} (h : Inv s) (hsel : s.sel = false) (id : Half) (payload : List Byte) :
    Inv (s.enter id payload) := by
  by_cases hfit : payload.length ≤ s.cfg.txCap
  · rw [State.enter_of_le hfit]
    refine .of_due (x := .txAssert) rfl ?_ hsel
      ⟨⟨rfl, Nat.dvd_zero 16, Nat.eq_zero_or_pos _⟩, Nat.zero_lt_succ _⟩
    exact { h.bounds.cleared with
      txbuf_wf := Memory.writeRange_wf 0 payload h.txbuf_wf
      txbuf_in := inside_writeRange h.txbuf_in (.inr (by simpa using hfit))
      txOff_le := Nat.zero_le _
      txLen_le := hfit }
  · rw [State.enter_of_gt (Nat.lt_of_not_le hfit)]
    exact .of_due (x := .done) rfl { h.bounds.cleared with } hsel trivial

theorem Inv.entryStep {s : State} (h : Inv s) (hsel : s.sel = false) : Inv s.entryStep := by
  cases hreq : s.req with
  | execute id payload =>
    rw [State.entryStep_of_execute hreq]
    exact h.enter hsel id payload
  | none | encodeHeader | decodeHeader => rwa [State.entryStep_of_no_execute (by simp [hreq])]

/-! ## Sending a frame (R153 to R160, R180) -/

/-- `TX_ASSERT` counts the attempt it has left and takes the chunk's length as `f_len`. -/
theorem Inv.sendAssert {s : State} (h : Inv s) (hst : s.st = .txAssert) :
    Inv (s.sendAssert s.cmdId s.more (s.txbuf.readRange s.txOff s.chunkLen)) := by
  have hlen : (s.txbuf.readRange s.txOff s.chunkLen).length = s.chunkLen := Memory.readRange_length ..
  have hle : (s.txbuf.readRange s.txOff s.chunkLen).length ≤ Config.maxPayload := Nat.le_trans (Nat.le_of_eq hlen) s.chunkLen_le
  obtain ⟨hsends, hattempts⟩ := h.due hst
  refine .of_due (x := .txType) rfl ?_ rfl ⟨hsends, hlen⟩
  exact { h.bounds with
    fPay_wf := Memory.writeRange_wf 0 _ h.fPay_wf
    fPay_in := inside_writeRange h.fPay_in (.inr (by simpa using hle))
    fLen_le := hle
    byteIx_le := Nat.zero_le _
    attempts_le := hattempts }

theorem Inv.sendType {s : State} (h : Inv s) (hst : s.st = .txType) : Inv s.sendType := by
  by_cases hr : s.env.peerByte = 0xFE
  · rw [State.sendType, hr, State.takeEcho_notReady]
    exact h.advance hst rfl rfl rfl (fun b => { b with }) And.left
  · rw [State.sendType, State.takeEcho_of_ne hr]
    exact h.advance hst rfl rfl rfl (fun b => { b with }) id

theorem Inv.notReady {s : State} (h : Inv s) (hst : s.st = .txNrRelease) : Inv s.notReady := by
  by_cases hlast : 25 ≤ s.attempts
  · rw [State.notReady_of_ge hlast]
    exact h.move (y := .done) hst rfl rfl (fun b => { b with }) fun _ => trivial
  · have hleft := Nat.lt_of_not_le hlast
    rw [State.notReady_of_lt hleft]
    exact h.move hst rfl rfl (fun b => { b with tMark_le := Nat.le_refl _ }) fun hsends => ⟨hsends, hleft⟩

/-- After the id the size byte goes out where the chunk has bytes, else the filler (R156). -/
theorem Inv.sendIdHi {s : State} (h : Inv s) (hst : s.st = .txIdhi) : Inv (s.sendIdHi s.cmdId s.chunkLen) := by
  by_cases hpos : s.chunkLen > 0
  · have hmore : s.txOff < s.txLen := by
      rw [State.chunkLen_eq] at hpos
      omega
    exact h.advance (y := .txSize) hst (by simp [State.sendIdHi, hpos]) rfl rfl (fun b => { b with })
      fun ⟨hsends, hlen⟩ => ⟨hsends, hlen, hmore⟩
  · exact h.advance (y := .txFill) hst (by simp [State.sendIdHi, hpos]) rfl rfl (fun b => { b with }) And.left

theorem Inv.sendSize {s : State} (h : Inv s) (hst : s.st = .txSize) : Inv (s.sendSize s.chunkLen s.more) := by
  refine h.advance (y := .txPayload) hst (by simp [State.sendSize]) rfl rfl
    (fun b => { b with byteIx_le := Nat.zero_le _ }) ?_
  rintro ⟨hsends, hlen, hmore⟩
  have hpos : 0 < s.chunkLen := by
    rw [State.chunkLen_eq]
    omega
  exact ⟨hsends, hlen, hmore, hpos⟩

theorem Inv.sendByte {s : State} (h : Inv s) (hst : s.st = .txPayload) (b : Byte) :
    Inv (s.sendByte s.chunkLen b) := by
  have hsel : s.sel = true := h.selects hst
  obtain ⟨hsends, hlen, hmore, hix⟩ := h.due hst
  have hnext : s.byteIx + 1 ≤ s.fLen := hlen ▸ hix
  have hbounds : Bounds (s.sendByte s.chunkLen b) := { h.bounds with byteIx_le := hnext }
  by_cases hlast : s.byteIx + 1 = s.chunkLen
  · exact .of_due (x := .txRelease) (by simp [State.sendByte, hlast]) hbounds hsel hsends
  · exact .of_due (x := .txPayload) (by simp [State.sendByte, hlast]) hbounds hsel
      ⟨hsends, hlen, hmore, Nat.lt_of_le_of_ne hix hlast⟩

/-- The end of a frame (R160): a whole payload went out and another frame is due, or the message has gone out. -/
theorem Inv.sendRelease {s : State} (h : Inv s) (hst : s.st = .txRelease) :
    Inv (s.sendRelease s.chunkLen s.more) := by
  obtain ⟨hok, haligned, hremains⟩ := h.due hst
  have hoff : s.txOff + s.chunkLen ≤ s.txLen := by
    have := h.txOff_le
    rw [State.chunkLen_eq]
    omega
  have hbounds : Bounds (s.sendRelease s.chunkLen s.more) :=
    { h.bounds with txOff_le := hoff, attempts_le := Nat.zero_le _, tMark_le := Nat.le_refl _ }
  by_cases hmore : s.more = true
  · have hlt : s.txOff + s.chunkLen < s.txLen := s.more_iff.mp hmore
    have hdvd : 16 ∣ s.txOff + s.chunkLen := by
      rw [State.chunkLen_of_more hmore]
      exact Nat.dvd_add haligned (Nat.dvd_refl 16)
    exact .of_due (x := .txIfDelay) (by simp [State.sendRelease, hmore]) hbounds rfl
      ⟨⟨hok, hdvd, .inr hlt⟩, Nat.zero_lt_succ _, hlt⟩
  · have hsent : s.txOff + s.chunkLen = s.txLen :=
      Nat.le_antisymm hoff (Nat.le_of_not_lt fun hlt => hmore (s.more_iff.mpr hlt))
    exact .of_due (x := .rxSettle) (by simp [State.sendRelease, hmore]) hbounds rfl ⟨hok, hsent⟩

/-! ## Receiving a frame (R186, R210 to R215) -/

theorem Inv.poll {s : State} (h : Inv s) (hst : s.st = .rxPoll) : Yields (execStRxPoll s) Inv := by
  by_cases hwindow : s.now - s.tRx ≥ s.cfg.readTimeout
  · rw [execStRxPoll_of_elapsed hwindow]
    exact .next (h.advance hst rfl rfl rfl (fun b => { b with }) fun ⟨_, hsent⟩ => ⟨hsent, nofun⟩)
  · rw [execStRxPoll_of_open hwindow]
    cases s.env.readyLevel with
    | true | false => exact .next (h.advance hst rfl rfl rfl (fun b => { b with }) id)

theorem Inv.takeType {s : State} (h : Inv s) (hst : s.st = .rxType) (r : Byte) :
    Inv (s.takeByte.takeType r) := by
  unfold State.takeType
  cases typeClass r with
  | response | sentinel => exact h.advance hst rfl rfl rfl (fun b => { b with }) id
  | unexpected => exact h.advance hst rfl rfl rfl (fun b => { b with }) fun ⟨_, hsent⟩ => ⟨hsent, nofun⟩

/-- The clamped length bounds `f_len`; an empty frame skips the payload (R213). -/
theorem Inv.takeSize {s : State} (h : Inv s) (hst : s.st = .rxSize) (r : Byte) :
    Inv (s.takeByte.takeSize r) := by
  have hsel : s.sel = true := h.selects hst
  have hbounds : Bounds (s.takeByte.takeSize r) :=
    { h.bounds with fLen_le := clampLen_le _, byteIx_le := Nat.zero_le _ }
  have hreceives := h.due hst
  by_cases hempty : clampLen (unpackLen r) = 0
  · exact .of_due (x := .rxAppend) (by simp [State.takeSize, hempty]) hbounds hsel hreceives
  · exact .of_due (x := .rxPayload) (by simp [State.takeSize, hempty]) hbounds hsel
      ⟨hreceives, Nat.pos_of_ne_zero hempty⟩

theorem Inv.takePayload {s : State} (h : Inv s) (hst : s.st = .rxPayload) (r : Byte) :
    Inv (s.takeByte.takePayload r) := by
  have hsel : s.sel = true := h.selects hst
  obtain ⟨hreceives, hix⟩ := h.due hst
  have hbounds : Bounds (s.takeByte.takePayload r) :=
    { h.bounds with
      fPay_wf := Memory.write_wf _ _ h.fPay_wf
      fPay_in := inside_write h.fPay_in (Nat.lt_of_lt_of_le hix h.fLen_le)
      byteIx_le := hix }
  by_cases hlast : s.byteIx + 1 = s.fLen
  · exact .of_due (x := .rxAppend) (by simp [State.takePayload, hlast]) hbounds hsel hreceives
  · exact .of_due (x := .rxPayload) (by simp [State.takePayload, hlast]) hbounds hsel
      ⟨hreceives, Nat.lt_of_le_of_ne hix hlast⟩

theorem Inv.finishFrame {s : State} (h : Inv s) (hst : s.st = .rxAppend) : Inv s.finishFrame := by
  have hsel : s.sel = true := h.selects hst
  by_cases hfit : s.rxLen + s.fLen ≤ s.cfg.rxCap
  · rw [State.finishFrame_of_le hfit]
    have hbounds : Bounds s.append :=
      { h.bounds with
        rxbuf_wf := Memory.writeRange_wf _ _ h.rxbuf_wf
        rxbuf_in := inside_writeRange h.rxbuf_in (.inr (by rw [Memory.readRange_length]; exact hfit))
        rxLen_le := hfit }
    by_cases hcont : s.contFlag = true
    · exact .of_due (x := .rxPoll) (by simp [State.append, hcont]) hbounds hsel (h.due hst)
    · exact .of_due (x := .rxDoneRelease) (by simp [State.append, hcont]) hbounds hsel (h.due hst)
  · rw [State.finishFrame_of_gt (Nat.lt_of_not_le hfit)]
    exact h.advance (y := .failRelease) hst rfl rfl rfl (fun b => { b with }) fun ⟨_, hsent⟩ => ⟨hsent, nofun⟩

/-! ## Every row -/

theorem exec_stRow_inv {s : State} (h : Inv s) : Yields (exec (stRow s.st) s) Inv := by
  cases hst : s.st with
  | idle | done => exact .next (h.entryStep (h.selects hst))
  | txAssert => exact .guarded fun _ => h.sendAssert hst
  | txType => exact .next (h.sendType hst)
  | txNrRelease => exact .next (h.notReady hst)
  | txNrDelay => exact .next (h.sleepIn hst rfl id)
  | txIdlo | rxIdlo | rxIdhi => exact .next (h.advance hst rfl rfl rfl (fun b => { b with }) id)
  | txIdhi => exact .next (h.sendIdHi hst)
  | txSize => exact .next (h.sendSize hst)
  | txPayload => exact .guarded fun _ => h.sendByte hst _
  | txFill => exact .next (h.advance hst rfl rfl rfl (fun b => { b with }) id)
  | txRelease => exact .next (h.sendRelease hst)
  | txIfDelay => exact .next (h.sleepIn hst rfl fun ⟨hsends, hleft, _⟩ => ⟨hsends, hleft⟩)
  | rxSettle | rxTogDelay1 | rxTogDelay2 => exact .next (h.sleepIn hst rfl id)
  | rxAssert => exact .next (h.move hst rfl rfl (fun b => { b with tRx_le := Nat.le_refl _ }) id)
  | rxPoll => exact h.poll hst
  | rxType => exact .next (h.takeType hst _)
  | rxTogRelease | rxTogAssert =>
    exact .next (h.move hst rfl rfl (fun b => { b with tMark_le := Nat.le_refl _ }) id)
  | rxSize => exact .next (h.takeSize hst _)
  | rxPayload => exact .guarded fun _ => h.takePayload hst _
  | rxAppend => exact .guarded fun _ => h.finishFrame hst
  | rxDoneRelease | failRelease => exact .next (h.move (y := .done) hst rfl rfl (fun b => { b with }) fun _ => trivial)

/-- Settles O46: under the reset input everything is cleared; else the row of `st` keeps the invariants, and so do
the codec's answer before it and the next inputs after it. -/
theorem everyStepKeepsTheInvariants : Obligations.EveryStepKeepsTheInvariants := by
  intro s t hinv h
  cases hr : s.rst with
  | true =>
    obtain rfl := Host.Outcome.next.inj ((step_of_rst hr).symm.trans h)
    exact hinv.applyReset.nextInputs
  | false =>
    obtain ⟨u, hu, rfl⟩ := yields_of_step hr hinv.issued h (exec_stRow_inv hinv.begun)
    exact hu.nextInputs

end Sys2Proof.Safety
end

section
/-! Who writes what (R22 to R24, R27 to R31, R36): for each row of `st` the registers it writes, the others kept. -/

namespace Sys2Proof.Safety

open Sys2Proof.Machine

/-- From `s` to `t` the row of state `x` writes no register but those the rules name for it. Each clause is tried as
"kept", so that a row's proof names only the registers it does write. -/
structure WritesAsRuled (x : St) (s t : State) : Prop where
  cfg : t.cfg = s.cfg := by rfl
  message : x ≠ .idle → x ≠ .done → t.cmdId = s.cmdId ∧ t.txbuf = s.txbuf ∧ t.txLen = s.txLen := by
    exact fun _ _ => ⟨rfl, rfl, rfl⟩
  tRx : x ≠ .rxAssert → t.tRx = s.tRx := by exact fun _ => rfl
  response : x ≠ .idle → x ≠ .done → x ≠ .rxAppend → t.rxbuf = s.rxbuf ∧ t.rxLen = s.rxLen := by
    exact fun _ _ _ => ⟨rfl, rfl⟩
  attempts : x ≠ .txAssert → x ≠ .txRelease → x ≠ .idle → x ≠ .done → t.attempts = s.attempts := by
    exact fun _ _ _ _ => rfl
  tMark : x ≠ .txNrRelease → x ≠ .txRelease → x ≠ .rxTogRelease → x ≠ .rxTogAssert → t.tMark = s.tMark := by
    exact fun _ _ _ _ => rfl
  txOff : x ≠ .idle → x ≠ .done → x ≠ .txRelease → t.txOff = s.txOff := by exact fun _ _ _ => rfl
  byteIx : x ≠ .idle → x ≠ .done → x ≠ .txAssert → x ≠ .txSize → x ≠ .txPayload → x ≠ .rxSize → x ≠ .rxPayload →
    t.byteIx = s.byteIx := by exact fun _ _ _ _ _ _ _ => rfl

/-- The entry step (R151) may write the message, the response and the counters, from a resting state only; it leaves
the parameters and the clock samples. -/
theorem WritesAsRuled.entryStep {x : St} (s : State) (hx : x = .idle ∨ x = .done) :
    WritesAsRuled x s s.entryStep := by
  have hkept : s.entryStep.cfg = s.cfg ∧ s.entryStep.tRx = s.tRx ∧ s.entryStep.tMark = s.tMark := by
    cases hreq : s.req with
    | execute id payload =>
      rw [State.entryStep_of_execute hreq]
      by_cases hfit : payload.length ≤ s.cfg.txCap
      · rw [State.enter_of_le hfit]
        exact ⟨rfl, rfl, rfl⟩
      · rw [State.enter_of_gt (Nat.lt_of_not_le hfit)]
        exact ⟨rfl, rfl, rfl⟩
    | none | encodeHeader | decodeHeader =>
      rw [State.entryStep_of_no_execute (by simp [hreq])]
      exact ⟨rfl, rfl, rfl⟩
  obtain ⟨hcfg, htRx, htMark⟩ := hkept
  have hrest : ∀ {p : Prop}, x ≠ .idle → x ≠ .done → p := fun hidle hdone => absurd hx (by simp [hidle, hdone])
  exact
    { cfg := hcfg, tRx := fun _ => htRx, tMark := fun _ _ _ _ => htMark
      message := hrest, response := hrest, txOff := hrest, byteIx := hrest
      attempts := fun _ _ => hrest }

theorem WritesAsRuled.notReady (s : State) : WritesAsRuled .txNrRelease s s.notReady := by
  by_cases hlast : 25 ≤ s.attempts
  · rw [State.notReady_of_ge hlast]
    exact {}
  · rw [State.notReady_of_lt (Nat.lt_of_not_le hlast)]
    exact { tMark := fun h => absurd rfl h }

theorem WritesAsRuled.poll (s : State) : Yields (execStRxPoll s) (WritesAsRuled .rxPoll s) := by
  by_cases hwindow : s.now - s.tRx ≥ s.cfg.readTimeout
  · rw [execStRxPoll_of_elapsed hwindow]
    exact .next {}
  · rw [execStRxPoll_of_open hwindow]
    exact .next {}

theorem WritesAsRuled.takeType (s : State) (r : Byte) : WritesAsRuled .rxType s (s.takeByte.takeType r) := by
  unfold State.takeType
  cases typeClass r <;> exact {}

theorem WritesAsRuled.finishFrame (s : State) : WritesAsRuled .rxAppend s s.finishFrame := by
  by_cases hfit : s.rxLen + s.fLen ≤ s.cfg.rxCap
  · rw [State.finishFrame_of_le hfit]
    exact { response := fun _ _ h => absurd rfl h }
  · rw [State.finishFrame_of_gt (Nat.lt_of_not_le hfit)]
    exact {}

theorem exec_stRow_writes (x : St) (s : State) : Yields (exec (stRow x) s) (WritesAsRuled x s) := by
  cases x with
  | idle => exact .next (.entryStep s (.inl rfl))
  | done => exact .next (.entryStep s (.inr rfl))
  | txType | txNrDelay | txIdlo | txIdhi | txFill | txIfDelay | rxSettle | rxTogDelay1 | rxTogDelay2 | rxIdlo | rxIdhi
  | rxDoneRelease | failRelease => exact .next {}
  | txAssert =>
    exact .guarded fun _ => { attempts := fun h => absurd rfl h, byteIx := fun _ _ h => absurd rfl h }
  | txNrRelease => exact .next (.notReady s)
  | txSize => exact .next { byteIx := fun _ _ _ h => absurd rfl h }
  | txPayload => exact .guarded fun _ => { byteIx := fun _ _ _ _ h => absurd rfl h }
  | txRelease =>
    exact .next { attempts := fun _ h => absurd rfl h, tMark := fun _ h => absurd rfl h,
                  txOff := fun _ _ h => absurd rfl h }
  | rxAssert => exact .next { tRx := fun h => absurd rfl h }
  | rxPoll => exact .poll s
  | rxType => exact .next (.takeType s _)
  | rxTogRelease => exact .next { tMark := fun _ _ h => absurd rfl h }
  | rxTogAssert => exact .next { tMark := fun _ _ _ h => absurd rfl h }
  | rxSize => exact .next { byteIx := fun _ _ _ _ _ h => absurd rfl h }
  | rxPayload => exact .guarded fun _ => { byteIx := fun _ _ _ _ _ _ h => absurd rfl h }
  | rxAppend => exact .guarded fun _ => .finishFrame s

/-- Settles O51: the row of `st` writes as the rules say, and what a step does around its row writes none of these
registers. -/
theorem registersAreWrittenWhereTheRulesSay : Obligations.RegistersAreWrittenWhereTheRulesSay := by
  intro s t hr hi h
  obtain ⟨u, hu, rfl⟩ := yields_of_step hr hi h (exec_stRow_writes s.st s.begun)
  exact ⟨hu.cfg, hu.message, hu.tRx, hu.response, hu.attempts, hu.tMark, hu.txOff, hu.byteIx⟩

end Sys2Proof.Safety
end

section
/-! The command id is tested by no rule (R22, R82, R89): a row run with another `cmd_id` answers the same next state but
for `cmd_id` and the places the rules copy it to. -/

namespace Sys2Proof.Safety

open Sys2Proof.Machine

/-- The state with another command id. -/
def withId (v : Half) (s : State) : State :=
  { s with cmdId := v }

theorem withId_begun (v : Half) (s : State) : (withId v s).begun = withId v s.begun := rfl

/-! ## Operations that choose between states choose alike whatever the id is -/

theorem withId_notReady (v : Half) (s : State) : (withId v s).notReady = withId v s.notReady := by
  by_cases hlast : 25 ≤ s.attempts
  · rw [State.notReady_of_ge hlast, State.notReady_of_ge (s := withId v s) hlast]
    rfl
  · have hleft := Nat.lt_of_not_le hlast
    rw [State.notReady_of_lt hleft, State.notReady_of_lt (s := withId v s) hleft]
    rfl

theorem withId_finishFrame (v : Half) (s : State) : (withId v s).finishFrame = withId v s.finishFrame := by
  by_cases hfit : s.rxLen + s.fLen ≤ s.cfg.rxCap
  · rw [State.finishFrame_of_le hfit, State.finishFrame_of_le (s := withId v s) hfit]
    rfl
  · have hgt := Nat.lt_of_not_le hfit
    rw [State.finishFrame_of_gt hgt, State.finishFrame_of_gt (s := withId v s) hgt]
    rfl

theorem withId_takeType (v : Half) (s : State) (r : Byte) :
    (withId v s).takeByte.takeType r = withId v (s.takeByte.takeType r) := by
  unfold State.takeType
  cases typeClass r <;> rfl

theorem withId_poll (v : Half) (s : State) :
    Yields (execStRxPoll s) fun u => execStRxPoll (withId v s) = .next (withId v u) := by
  by_cases hwindow : s.now - s.tRx ≥ s.cfg.readTimeout
  · rw [execStRxPoll_of_elapsed hwindow]
    exact .next (execStRxPoll_of_elapsed (s := withId v s) hwindow)
  · rw [execStRxPoll_of_open hwindow]
    exact .next (execStRxPoll_of_open (s := withId v s) hwindow)

/-- The entry step takes the id from the request, or leaves it. -/
theorem withId_entryStep (v : Half) (s : State) : ∃ w, (withId v s).entryStep = withId w s.entryStep := by
  cases hreq : s.req with
  | execute id payload =>
    rw [State.entryStep_of_execute hreq, State.entryStep_of_execute (s := withId v s) hreq]
    by_cases hfit : payload.length ≤ s.cfg.txCap
    · rw [State.enter_of_le hfit, State.enter_of_le (s := withId v s) hfit]
      exact ⟨id, rfl⟩
    · have hgt := Nat.lt_of_not_le hfit
      rw [State.enter_of_gt hgt, State.enter_of_gt (s := withId v s) hgt]
      exact ⟨v, rfl⟩
  | none | encodeHeader | decodeHeader =>
    rw [State.entryStep_of_no_execute (s := s) (by simp [hreq]),
      State.entryStep_of_no_execute (s := withId v s) (by simp [withId, hreq])]
    exact ⟨v, rfl⟩

/-! ## Every row -/

/-- The row of state `x`, which answers `u` from `s`, answers with `v` as the command id the same state but for
`cmd_id`, `f_id` and the trace, and these are the same too but where `x` copies or sends the id. A clause not given is
the one of a row that does not look at the id. -/
structure IdReaches (x : St) (s : State) (v : Half) (u : State) (w fId : Half) (events : List LinkEvent) : Prop where
  row : exec (stRow x) (withId v s) = .next { u with cmdId := w, fId := fId, trace := events }
  cmdId : x ≠ .idle → x ≠ .done → w = v := by exact fun _ _ => rfl
  copied : x ≠ .txAssert → fId = u.fId := by exact fun _ => rfl
  performed : x ≠ .txIdlo → x ≠ .txIdhi → events = u.trace := by exact fun _ _ => rfl
  sentLo : x = .txIdlo → events = .xfer (v.extractLsb' 0 8) s.env.peerByte :: s.trace := by exact nofun
  sentHi : x = .txIdhi → events = .xfer (v.extractLsb' 8 8) s.env.peerByte :: s.trace := by exact nofun

/-- The command id of `s` is tested nowhere on the way to `u`, in the row of state `x`. -/
def Untested (x : St) (s : State) (v : Half) (u : State) : Prop :=
  ∃ w fId events, IdReaches x s v u w fId events

theorem exec_stRow_untested (x : St) (s : State) (v : Half) : Yields (exec (stRow x) s) (Untested x s v) := by
  cases x with
  | idle | done =>
    obtain ⟨w, hw⟩ := withId_entryStep v s
    exact .next ⟨w, _, _, { row := congrArg Host.Outcome.next hw, cmdId := by simp }⟩
  | txAssert => exact .guarded fun hin => ⟨v, v, _, { row := if_pos hin, copied := fun h => absurd rfl h }⟩
  | txIdlo =>
    exact .next ⟨v, _, _, { row := rfl, performed := fun h => absurd rfl h, sentLo := fun _ => rfl }⟩
  | txIdhi =>
    exact .next ⟨v, _, _, { row := rfl, performed := fun _ h => absurd rfl h, sentHi := fun _ => rfl }⟩
  | txPayload | rxPayload => exact .guarded fun hin => ⟨v, _, _, { row := if_pos hin }⟩
  | rxAppend =>
    exact .guarded fun hin => ⟨v, _, _, { row := (if_pos hin).trans (congrArg _ (withId_finishFrame v s)) }⟩
  | txNrRelease => exact .next ⟨v, _, _, { row := congrArg Host.Outcome.next (withId_notReady v s) }⟩
  | rxType => exact .next ⟨v, _, _, { row := congrArg Host.Outcome.next (withId_takeType v s _) }⟩
  | rxPoll => exact fun u hu => ⟨v, _, _, { row := withId_poll v s u hu }⟩
  | txType | txNrDelay | txSize | txFill | txRelease | txIfDelay | rxSettle | rxAssert | rxTogRelease | rxTogDelay1
  | rxTogAssert | rxTogDelay2 | rxIdlo | rxIdhi | rxSize | rxDoneRelease | failRelease =>
    exact .next ⟨v, _, _, { row := rfl }⟩

/-- Settles O55: the row of `st` does not test the id, and the step around it neither reads nor writes it. -/
theorem commandIdIsTestedByNoRule : Obligations.CommandIdIsTestedByNoRule := by
  intro s t v hr hi h
  obtain ⟨u, ⟨w, fId, events, hu⟩, rfl⟩ := yields_of_step hr hi h (exec_stRow_untested s.st s.begun v)
  refine ⟨w, fId, events, ?_, hu.cmdId, hu.copied, hu.performed, hu.sentLo, hu.sentHi⟩
  have hstep : step (withId v s) = finishStep (exec (stRow s.st) (withId v s.begun)) :=
    step_of_st (s := withId v s) hr hi
  exact hstep.trans (congrArg finishStep hu.row)

end Sys2Proof.Safety
end

section
/-! Accesses outside a buffer (R66, log 4): the four rows that form an index of a buffer fault on exactly such an
access, no other instruction faults, and the invariants keep every index inside its buffer. -/

namespace Sys2Proof.Machine

/-! ## The four guards -/

theorem execStTxAssert_of_inside {s : State} (h : s.chunkLen = 0 ∨ s.txOff + s.chunkLen ≤ s.cfg.txCap) :
    execStTxAssert s = .next (s.sendAssert s.cmdId s.more (s.txbuf.readRange s.txOff s.chunkLen)) :=
  if_pos (inBuffer_iff.mpr h)

theorem execStTxAssert_of_outside {s : State} (hpos : 0 < s.chunkLen) (h : s.cfg.txCap < s.txOff + s.chunkLen) :
    execStTxAssert s = .fault (.outsideBuffer .txbuf (s.txOff + s.chunkLen - 1)) :=
  if_neg (mt inBuffer_iff.mp (by omega))

theorem execStTxPayload_of_inside {s : State} (h : s.txOff + s.byteIx < s.cfg.txCap) :
    execStTxPayload s = .next (s.sendByte s.chunkLen (s.txbuf.read (s.txOff + s.byteIx))) :=
  if_pos (inBuffer_iff.mpr (.inr h))

theorem execStTxPayload_of_outside {s : State} (h : s.cfg.txCap ≤ s.txOff + s.byteIx) :
    execStTxPayload s = .fault (.outsideBuffer .txbuf (s.txOff + s.byteIx)) :=
  if_neg (mt inBuffer_iff.mp (by omega))

theorem execStRxPayload_of_inside {s : State} (h : s.byteIx < Config.maxPayload) :
    execStRxPayload s = .next (s.takeByte.takePayload s.env.peerByte) :=
  if_pos (inBuffer_iff.mpr (.inr h))

theorem execStRxPayload_of_outside {s : State} (h : Config.maxPayload ≤ s.byteIx) :
    execStRxPayload s = .fault (.outsideBuffer .fPay s.byteIx) :=
  if_neg (mt inBuffer_iff.mp (by omega))

theorem execStRxAppend_of_inside {s : State} (h : s.fLen ≤ Config.maxPayload) :
    execStRxAppend s = .next s.finishFrame := by
  have hin : inBuffer Config.maxPayload 0 s.fLen = true := inBuffer_iff.mpr (.inr (by omega))
  simp only [execStRxAppend, hin, Bool.or_true, if_true]

/-- `f_pay` is read only where the frame fits the response buffer (R222). -/
theorem execStRxAppend_of_outside {s : State} (h : Config.maxPayload < s.fLen) (hfit : s.rxLen + s.fLen ≤ s.cfg.rxCap) :
    execStRxAppend s = .fault (.outsideBuffer .fPay (s.fLen - 1)) := by
  refine if_neg ?_
  rw [Bool.or_eq_true, State.overflows_iff, inBuffer_iff]
  omega

/-! ## Where a fault comes from -/

/-- The rows that form an index of a buffer. -/
def FormsIndex (i : Instr) : Prop :=
  i = .stTxAssert ∨ i = .stTxPayload ∨ i = .stRxPayload ∨ i = .stRxAppend

/-- Every other instruction answers a next state, from whatever state. -/
theorem exec_next_of_not_formsIndex {i : Instr} (h : ¬ FormsIndex i) (s : State) : ∃ t, exec i s = .next t := by
  cases i with
  | stTxAssert | stTxPayload | stRxPayload | stRxAppend => simp [FormsIndex] at h
  | _ => exact ⟨_, rfl⟩

theorem formsIndex_of_fault {i : Instr} {s : State} {f : Fault} (h : exec i s = .fault f) : FormsIndex i := by
  refine Classical.byContradiction fun hi => ?_
  obtain ⟨t, ht⟩ := exec_next_of_not_formsIndex hi s
  rw [ht] at h
  cases h

/-- Settles O48, by the guard of each of the four rows. -/
theorem accessOutsideABufferFaults : Obligations.AccessOutsideABufferFaults :=
  fun _ => ⟨execStTxAssert_of_outside, execStTxPayload_of_outside, execStRxPayload_of_outside,
    execStRxAppend_of_outside, fun _ _ => formsIndex_of_fault⟩

end Sys2Proof.Machine

namespace Sys2Proof.Safety

open Sys2Proof.Machine

/-! ## The invariants keep every index inside -/

theorem Inv.chunk_inside {s : State} (h : Inv s) : s.chunkLen = 0 ∨ s.txOff + s.chunkLen ≤ s.cfg.txCap := by
  have hoff := h.txOff_le
  have hlen := h.txLen_le
  rw [State.chunkLen_eq]
  omega

theorem Inv.sent_byte_inside {s : State} (h : Inv s) (hst : s.st = .txPayload) :
    s.txOff + s.byteIx < s.cfg.txCap := by
  have hix := h.sending_ix hst
  have hchunk := h.chunk_inside
  omega

theorem Inv.received_byte_inside {s : State} (h : Inv s) (hst : s.st = .rxPayload) : s.byteIx < Config.maxPayload :=
  Nat.lt_of_lt_of_le (h.receiving_ix hst) h.fLen_le

theorem exec_stRow_next {s : State} (h : Inv s) : ∃ t, exec (stRow s.st) s = .next t := by
  cases hst : s.st with
  | txAssert => exact ⟨_, execStTxAssert_of_inside h.chunk_inside⟩
  | txPayload => exact ⟨_, execStTxPayload_of_inside (h.sent_byte_inside hst)⟩
  | rxPayload => exact ⟨_, execStRxPayload_of_inside (h.received_byte_inside hst)⟩
  | rxAppend => exact ⟨_, execStRxAppend_of_inside h.fLen_le⟩
  | _ => exact exec_next_of_not_formsIndex (by simp [FormsIndex, stRow]) s

/-- Settles O47: the reset input stops nothing, and the row of `st` forms no index outside its buffer. -/
theorem noStepStops : Obligations.NoStepStops := by
  intro s h
  cases hr : s.rst with
  | true => exact ⟨_, step_of_rst hr⟩
  | false =>
    obtain ⟨t, ht⟩ : ∃ t, exec (stRow s.st) s.begun = .next t := exec_stRow_next h.begun
    exact ⟨t.nextInputs, by rw [step_of_st hr h.issued, ht, finishStep]⟩

end Sys2Proof.Safety
end

section
/-! A wire row away from its position (R65, R93, log 9). -/

namespace Sys2Proof.Machine

theorem State.typeArrives_elsewhere {s : State} (htx : s.st ≠ .txType) (hrx : s.st ≠ .rxType) (t : Byte) :
    s.typeArrives t = s := by
  rw [State.typeArrives, if_neg htx, if_neg hrx]

theorem State.sizeMoves_elsewhere {s : State} (htx : s.st ≠ .txSize) (hrx : s.st ≠ .rxSize) (cont : Bool)
    (unused : BitVec 2) (len : BitVec 5) : s.sizeMoves cont unused len = s := by
  rw [State.sizeMoves, if_neg hrx, if_neg htx]

theorem State.idMoves_elsewhere {s : State} (htx : s.st ≠ .txIdlo) (hrx : s.st ≠ .rxIdlo) (id : Half) :
    s.idMoves id = s := by
  rw [State.idMoves, if_neg hrx, if_neg htx]

/-- A named type row is the row of its value. -/
theorem exec_typeRow_elsewhere {s : State} (htx : s.st ≠ .txType) (hrx : s.st ≠ .rxType) :
    (∀ i ∈ [Instr.typeCommand, .typeResponse, .typeAlert, .typeError, .typeDeviceNotReady, .typeReadOverflow],
      exec i s = .next s) ∧ ∀ b, exec (.typeOther b) s = .next s := by
  have hkept (t : Byte) : Host.Outcome.next (s.typeArrives t) = (.next s : Host.Outcome State Fault Refusal) :=
    congrArg _ (State.typeArrives_elsewhere htx hrx t)
  refine ⟨?_, fun b => hkept b⟩
  simp only [List.forall_mem_cons]
  exact ⟨hkept _, hkept _, hkept _, hkept _, hkept _, hkept _, nofun⟩

/-- Settles O38, position by position. -/
theorem wireRowsActInTheirPositionOnly : Obligations.WireRowsActInTheirPositionOnly := by
  intro s
  refine ⟨exec_typeRow_elsewhere, fun htx hrx c u n => ?_, fun htx hrx => ⟨?_, ?_⟩, fun hst id more payload => ⟨?_, ?_⟩,
    fun hst id c u n payload => ?_⟩
  · exact congrArg Host.Outcome.next (State.sizeMoves_elsewhere htx hrx c u n)
  · exact congrArg Host.Outcome.next (State.idMoves_elsewhere htx hrx _)
  · exact congrArg Host.Outcome.next (State.idMoves_elsewhere htx hrx _)
  · exact congrArg Host.Outcome.next (if_neg hst)
  · exact congrArg Host.Outcome.next (if_neg hst)
  · exact congrArg Host.Outcome.next (if_neg hst)

end Sys2Proof.Machine
end

section
/-! The canonical form of the buffers (R60, log 5) under every instruction. An operation that writes no buffer keeps it
as it stands; the others write through `Memory.write` and `Memory.writeRange`, which keep it. -/

namespace Sys2Proof.Safety

open Sys2Proof.Machine

/-- The three buffers have the canonical form. -/
def Canonical (s : State) : Prop :=
  s.txbuf.wf = true ∧ s.rxbuf.wf = true ∧ s.fPay.wf = true

theorem Canonical.ite {s t : State} {c : Prop} [Decidable c] (hs : Canonical s) (ht : Canonical t) :
    Canonical (if c then s else t) := by
  split
  · exact hs
  · exact ht

/-! ## Entry and READ_BYTES -/

theorem Canonical.enter {s : State} (h : Canonical s) (id : Half) (payload : List Byte) :
    Canonical (s.enter id payload) := by
  obtain ⟨htx, hrx, -⟩ := h
  by_cases hfit : payload.length ≤ s.cfg.txCap
  · rw [State.enter_of_le hfit]
    exact ⟨Memory.writeRange_wf 0 payload htx, hrx, Memory.wf_nil⟩
  · rw [State.enter_of_gt (Nat.lt_of_not_le hfit)]
    exact ⟨htx, hrx, Memory.wf_nil⟩

theorem Canonical.entryStep {s : State} (h : Canonical s) : Canonical s.entryStep := by
  cases hreq : s.req with
  | execute id payload =>
    rw [State.entryStep_of_execute hreq]
    exact h.enter id payload
  | none | encodeHeader | decodeHeader => rwa [State.entryStep_of_no_execute (by simp [hreq])]

theorem Canonical.readOne {s : State} (h : Canonical s) : Canonical s.readOne := by
  simpa [Canonical] using h

theorem Canonical.readStep {s : State} (h : Canonical s) (n : Nat) : Canonical (s.readStep n) := by
  cases n with
  | zero => exact h
  | succ n =>
    rw [State.readStep_succ]
    exact .ite h.readOne h.readOne

/-! ## Sending -/

theorem Canonical.sendAssert {s : State} (h : Canonical s) (id : Half) (more : Bool) (payload : List Byte) :
    Canonical (s.sendAssert id more payload) := by
  obtain ⟨htx, hrx, hpay⟩ := h
  exact ⟨htx, hrx, Memory.writeRange_wf 0 payload hpay⟩

theorem Canonical.notReady {s : State} (h : Canonical s) : Canonical s.notReady :=
  .ite h h

theorem Canonical.sendBody {s : State} (h : Canonical s) (more : Bool) (payload : List Byte) :
    Canonical (s.sendBody more payload) := by
  by_cases hempty : payload = []
  · rw [hempty, State.sendBody_nil]
    exact h
  · rw [State.sendBody_of_ne hempty, foldl_sendByte_eq]
    exact h

theorem Canonical.sendFrame {s : State} (h : Canonical s) (id : Half) (more : Bool) (payload : List Byte) :
    Canonical (s.sendFrame id more payload) := by
  have htype : Canonical (s.sendAssert id more payload).sendType := h.sendAssert id more payload
  have hid : Canonical (((s.sendAssert id more payload).sendType.sendIdLo id).sendIdHi id payload.length) := htype
  exact .ite htype.notReady (hid.sendBody more payload)

/-! ## Receiving -/

theorem Canonical.takeType {s : State} (h : Canonical s) (r : Byte) : Canonical (s.takeType r) := by
  unfold State.takeType
  cases typeClass r <;> exact h

theorem Canonical.takePayload {s : State} (h : Canonical s) (r : Byte) : Canonical (s.takePayload r) := by
  obtain ⟨htx, hrx, hpay⟩ := h
  exact ⟨htx, hrx, Memory.write_wf s.byteIx r hpay⟩

theorem Canonical.finishFrame {s : State} (h : Canonical s) : Canonical s.finishFrame := by
  obtain ⟨htx, hrx, hpay⟩ := h
  exact .ite ⟨htx, hrx, hpay⟩ ⟨htx, Memory.writeRange_wf _ _ hrx, hpay⟩

theorem Canonical.foldl_takePayload {s : State} (h : Canonical s) (payload : List Byte) :
    Canonical (payload.foldl (fun t r => t.takePayload r) s) := by
  induction payload generalizing s with
  | nil => exact h
  | cons r rest ih => exact ih (h.takePayload r)

theorem Canonical.readFrame {s : State} (h : Canonical s) (id : Half) (size : Byte) (payload : List Byte) :
    Canonical (s.readFrame id size payload) := by
  have hheader : Canonical
      ((((s.takeType Config.tResponse).takeIdLo (idLo id)).takeIdHi (idHi id)).takeSize size) := h.takeType _
  exact (hheader.foldl_takePayload payload).finishFrame

/-! ## Wire fields -/

theorem Canonical.typeArrives {s : State} (h : Canonical s) (t : Byte) : Canonical (s.typeArrives t) :=
  .ite h (.ite (h.takeType t) h)

theorem Canonical.sizeMoves {s : State} (h : Canonical s) (cont : Bool) (unused : BitVec 2) (len : BitVec 5) :
    Canonical (s.sizeMoves cont unused len) :=
  .ite h (.ite (.ite h h) h)

theorem Canonical.idMoves {s : State} (h : Canonical s) (id : Half) : Canonical (s.idMoves id) :=
  .ite h (.ite h h)

/-! ## Every instruction -/

theorem exec_canonical {s : State} (h : Canonical s) (i : Instr) : Yields (exec i s) Canonical := by
  cases i with
  | frameOutPayload id more payload => exact .next (.ite (h.sendFrame id more payload) h)
  | frameOutEmpty id => exact .next (.ite (h.sendFrame id false []) h)
  | frameInResponse id cont unused len payload => exact .next (.ite (h.readFrame id _ payload) h)
  | typeCommand | typeResponse | typeAlert | typeError | typeDeviceNotReady | typeReadOverflow | typeOther =>
    exact .next (h.typeArrives _)
  | sizeByte cont unused len => exact .next (h.sizeMoves cont unused len)
  | idInit | idAtWrapper => exact .next (h.idMoves _)
  | execute id payload => exact .next (.ite h (h.enter id payload))
  | readBytes n => exact .next (h.readStep n)
  | stIdle | stDone => exact .next h.entryStep
  | stTxAssert => exact .guarded fun _ => h.sendAssert ..
  | stTxNrRelease => exact .next h.notReady
  | stTxPayload => exact .guarded fun _ => h
  | stRxPoll => exact .next (.ite h h)
  | stRxType => exact .next (Canonical.takeType (s := s.takeByte) h _)
  | stRxPayload => exact .guarded fun _ => Canonical.takePayload (s := s.takeByte) h _
  | stRxAppend => exact .guarded fun _ => h.finishFrame
  | encodeHeader | decodeHeader | assertSelect | release | transferByte | readyAsserted | now | sleep | stTxType
  | stTxNrDelay | stTxIdlo | stTxIdhi | stTxSize | stTxFill | stTxRelease | stTxIfDelay | stRxSettle | stRxAssert
  | stRxTogRelease | stRxTogDelay1 | stRxTogAssert | stRxTogDelay2 | stRxIdlo | stRxIdhi | stRxSize | stRxDoneRelease
  | stFailRelease => exact .next h

/-- The next step's inputs are no buffers. -/
theorem Canonical.nextInputs {s : State} (h : Canonical s) : Canonical s.nextInputs := h

/-- Settles O49: the reset input gives buffers in the form, and every instruction the decoder can answer keeps it. -/
theorem buffersStayCanonical : Obligations.BuffersStayCanonical := by
  intro s t htx hrx hpay h
  obtain ⟨-, rfl⟩ | ⟨-, i, u, -, hexec, rfl⟩ := step_cases h
  · have hreset : Canonical s.applyReset := s.applyReset_buffers_wf
    exact hreset.nextInputs
  · have hbegun : Canonical s.begun := ⟨htx, hrx, hpay⟩
    exact (exec_canonical hbegun i u hexec).nextInputs

end Sys2Proof.Safety
end

section
/-! The values of the wire's fields in the position they occupy (R81, R83, R84, R89, log 9). -/

namespace Sys2Proof.Machine

/-! ## The type byte -/

theorem State.typeArrives_of_rxType {s : State} (h : s.st = .rxType) (t : Byte) :
    s.typeArrives t = s.takeType t := by
  rw [State.typeArrives, if_neg (by simp [h]), if_pos h]

theorem State.typeArrives_of_txType {s : State} (h : s.st = .txType) (t : Byte) :
    s.typeArrives t = s.takeEcho t := by
  rw [State.typeArrives, if_pos h]

/-- Settles O30, by the class of each value: the Response, the sentinels, everything else. -/
theorem typeRowsOnReceive : Obligations.TypeRowsOnReceive := by
  intro s hst read fatal
  have hrow (t : Byte) : (.next (s.typeArrives t) : Host.Outcome State Fault Refusal) = .next (s.takeType t) :=
    congrArg _ (State.typeArrives_of_rxType hst t)
  have hfatal {t : Byte} (ht : t ∉ [0x20, 0xFE, 0xFF]) :
      (.next (s.typeArrives t) : Host.Outcome State Fault Refusal) = .next (fatal t) :=
    (hrow t).trans (congrArg _ (State.takeType_unexpected ht))
  refine ⟨hrow _, hrow _, hrow _, hfatal (by decide), hfatal (by decide), hfatal (by decide), fun b hb => hfatal ?_⟩
  simp only [List.mem_cons, List.not_mem_nil, or_false, not_or] at hb ⊢
  obtain ⟨-, hresponse, -, -, hnotReady, hoverflow⟩ := hb
  exact ⟨hresponse, hnotReady, hoverflow⟩

/-- Settles O31: only 0xFE refuses (R154). -/
theorem typeRowsAsEcho : Obligations.TypeRowsAsEcho := by
  intro s hst taken
  have hrow (t : Byte) : (.next (s.typeArrives t) : Host.Outcome State Fault Refusal) = .next (s.takeEcho t) :=
    congrArg _ (State.typeArrives_of_txType hst t)
  have htaken {t : Byte} (ht : t ≠ 0xFE) :
      (.next (s.typeArrives t) : Host.Outcome State Fault Refusal) = .next (taken t) :=
    (hrow t).trans (congrArg _ (State.takeEcho_of_ne ht))
  exact ⟨hrow _, htaken (by decide), htaken (by decide), htaken (by decide), htaken (by decide), htaken (by decide),
    fun _ hb => htaken hb⟩

/-! ## The size byte -/

theorem State.sizeMoves_of_rxSize {s : State} (h : s.st = .rxSize) (cont : Bool) (unused : BitVec 2)
    (len : BitVec 5) : s.sizeMoves cont unused len = s.takeSize (sizeBits cont unused len) := by
  rw [State.sizeMoves, if_pos h]

theorem State.sizeMoves_of_txSize {s : State} (h : s.st = .txSize) (cont : Bool) (unused : BitVec 2)
    (len : BitVec 5) :
    s.sizeMoves cont unused len =
      if len.toNat ≤ 16 then s.sendSize len.toNat cont else { s with result := .encFail } := by
  rw [State.sizeMoves, if_neg (by simp [h]), if_pos h]
  rfl

/-- The size byte read, its three fields given (R80, R213). -/
theorem State.takeSize_sizeBits (s : State) (cont : Bool) (unused : BitVec 2) (len : BitVec 5) :
    s.takeSize (sizeBits cont unused len) =
      { s with trace := .xfer 0xFF (sizeBits cont unused len) :: s.trace, fSize := sizeBits cont unused len,
               fLen := min len.toNat 16, byteIx := 0, st := if len = 0 then .rxAppend else .rxPayload } := by
  have hzero : clampLen len.toNat = 0 ↔ len = 0 := by
    rw [clampLen, Config.maxPayload]
    bv_omega
  simp only [State.takeSize, unpackLen_sizeBits, hzero]
  rfl

/-- Under the four-byte reading of the no-payload frame the payload follows the size byte (R157, D23). -/
theorem State.sendSize_eq (s : State) (len : Nat) (more : Bool) :
    s.sendSize len more = { s.transfer (packSize len more) with byteIx := 0, st := .txPayload } := by
  simp [State.sendSize]

/-- Settles O32, by position and, where the byte is sent, by the encoder's limit (R110). -/
theorem sizeByteReadAndSent : Obligations.SizeByteReadAndSent := by
  intro s cont unused len
  refine ⟨fun hst => ?_, fun hst hle => ?_, fun hst hgt => ?_⟩ <;> refine congrArg Host.Outcome.next ?_
  · rw [State.sizeMoves_of_rxSize hst, State.takeSize_sizeBits, sizeBits_eq_append]
  · rw [State.sizeMoves_of_txSize hst, if_pos hle, State.sendSize_eq, packSize_eq_sizeBits, sizeBits_eq_append]
    rfl
  · rw [State.sizeMoves_of_txSize hst, if_neg (Nat.not_le.mpr hgt)]

/-! ## The reserved ids -/

/-- The two id bytes read (R211, R212). -/
theorem State.takeIdLo_takeIdHi (s : State) (id : Half) :
    (s.takeIdLo (idLo id)).takeIdHi (idHi id) =
      { s with trace := .xfer 0xFF (idHi id) :: .xfer 0xFF (idLo id) :: s.trace, fId := id, st := .rxSize } := by
  have hid : joinId (idLo (joinId (idLo id) (idHi s.fId))) (idHi id) = id := by
    rw [idLo_joinId, joinId_idLo_idHi]
  simp only [State.takeIdHi, State.takeIdLo, hid]
  rfl

theorem State.idMoves_of_rxIdlo {s : State} (h : s.st = .rxIdlo) (id : Half) :
    s.idMoves id = (s.takeIdLo (idLo id)).takeIdHi (idHi id) := by
  rw [State.idMoves, if_pos h]

theorem State.idMoves_of_txIdlo {s : State} (h : s.st = .txIdlo) (id : Half) :
    s.idMoves id = (s.sendIdLo id).sendIdHi id s.chunkLen := by
  rw [State.idMoves, if_neg (by simp [h]), if_pos h]

/-- Under the four-byte reading of the no-payload frame the filler stands in the size byte's place (R156, D23). -/
theorem State.sendIdHi_eq (s : State) (id : Half) (len : Nat) :
    s.sendIdHi id len = (s.transfer (idHi id)).goto (if len > 0 then .txSize else .txFill) := by
  simp [State.sendIdHi]

/-- Settles O33: no rule tests an id's value, and the bytes of the two are by computation. -/
theorem reservedIdsMoveLowByteFirst : Obligations.ReservedIdsMoveLowByteFirst := by
  intro s
  refine ⟨fun hst => ?_, fun hst => ?_⟩
  · have hrow (id : Half) := (State.idMoves_of_rxIdlo hst id).trans (s.takeIdLo_takeIdHi id)
    exact ⟨congrArg Host.Outcome.next (hrow _), congrArg Host.Outcome.next (hrow _)⟩
  · have hrow (id : Half) := (State.idMoves_of_txIdlo hst id).trans ((s.sendIdLo id).sendIdHi_eq id s.chunkLen)
    exact ⟨congrArg Host.Outcome.next (hrow _), congrArg Host.Outcome.next (hrow _)⟩

end Sys2Proof.Machine
end

section
/-! The decoder answers an instruction's own code only (R86, R88, R90): port by port, what is decoded meets the checks
and encodes to the bytes it was decoded from. -/

namespace Sys2Proof

open Sys2Proof.Machine

/-- The code is the instruction's own, and the instruction meets the checks. -/
def IsCodeOf (c : Code) (i : Instr) : Prop :=
  i.wellFormed = true ∧ encode i = c

/-- A decoder that answers behind a check has found it met. -/
theorem ok_of_guard {α : Type} {c : Prop} [Decidable c] {r : Except DecodeError α} {e : DecodeError} {a : α}
    (h : (if c then r else .error e) = .ok a) : c ∧ r = .ok a := by
  split at h
  next hc => exact ⟨hc, h⟩
  next => cases h

/-! ## Frames -/

theorem isCodeOf_frameOutEmpty (lo hi : Byte) :
    IsCodeOf ⟨.frame, [Config.tCommand, lo, hi, Config.filler]⟩ (.frameOutEmpty (joinId lo hi)) := by
  simp [IsCodeOf, Instr.wellFormed, encode]

theorem isCodeOf_frameOutPayload {lo hi size : Byte} {payload : List Byte} (hunused : sizeUnused size = 0)
    (hpos : 1 ≤ unpackLen size) (hle : unpackLen size ≤ Config.maxPayload) (hlen : payload.length = unpackLen size) :
    IsCodeOf ⟨.frame, Config.tCommand :: lo :: hi :: size :: payload⟩
      (.frameOutPayload (joinId lo hi) (unpackCont size) payload) := by
  simp [IsCodeOf, Instr.wellFormed, encode, hlen, hpos, hle, packSize_of_unused_zero hunused]

theorem isCodeOf_frameInResponse {lo hi size : Byte} {payload : List Byte}
    (hlen : payload.length = clampLen (unpackLen size)) :
    IsCodeOf ⟨.frame, Config.tResponse :: lo :: hi :: size :: payload⟩
      (.frameInResponse (joinId lo hi) (unpackCont size) (sizeUnused size) (sizeLen size) payload) := by
  simp [IsCodeOf, Instr.wellFormed, encode, hlen, sizeBits_fields, sizeLen_toNat, clampLen]

theorem isCodeOf_of_decodeFrame {bytes : List Byte} {i : Instr} (h : decodeFrame bytes = .ok i) :
    IsCodeOf ⟨.frame, bytes⟩ i := by
  unfold decodeFrame at h
  split at h
  next t lo hi size payload =>
    split at h
    next hcommand =>
      subst hcommand
      split at h
      next hfiller =>
        subst hfiller
        obtain ⟨rfl, ⟨⟩⟩ := ok_of_guard h
        exact isCodeOf_frameOutEmpty lo hi
      next =>
        obtain ⟨⟨hunused, hpos, hle⟩, hrest⟩ := ok_of_guard h
        obtain ⟨hlen, ⟨⟩⟩ := ok_of_guard hrest
        exact isCodeOf_frameOutPayload hunused hpos hle hlen
    next =>
      obtain ⟨rfl, hrest⟩ := ok_of_guard h
      obtain ⟨hlen, ⟨⟩⟩ := ok_of_guard hrest
      exact isCodeOf_frameInResponse hlen
  next => cases h

/-! ## Wire fields -/

theorem isCodeOf_decodeType (t : Byte) : IsCodeOf ⟨.typeByte, [t]⟩ (decodeType t) := by
  by_cases ht : t ∈ namedTypes
  · simp only [namedTypes, List.mem_cons, List.not_mem_nil, or_false] at ht
    obtain rfl | rfl | rfl | rfl | rfl | rfl := ht <;> exact ⟨rfl, rfl⟩
  · rw [decodeType_of_not_named ht]
    exact ⟨by simpa [Instr.wellFormed] using ht, rfl⟩

theorem isCodeOf_decodeSize (b : Byte) : IsCodeOf ⟨.sizeByte, [b]⟩ (decodeSize b) := by
  simp [IsCodeOf, decodeSize, Instr.wellFormed, encode, sizeBits_fields]

theorem isCodeOf_of_decodeId {bytes : List Byte} {i : Instr} (h : decodeId bytes = .ok i) :
    IsCodeOf ⟨.id, bytes⟩ i := by
  unfold decodeId at h
  split at h
  next lo hi =>
    split at h
    next hid =>
      cases h
      exact ⟨rfl, by rw [encode, ← hid, idLo_joinId, idHi_joinId]⟩
    next =>
      obtain ⟨hid, ⟨⟩⟩ := ok_of_guard h
      exact ⟨rfl, by rw [encode, ← hid, idLo_joinId, idHi_joinId]⟩
  next => cases h

/-! ## The host port -/

theorem flagByte_of_decodeFlag {b : Byte} {c : Bool} (h : decodeFlag b = .ok c) : flagByte c = b := by
  unfold decodeFlag at h
  split at h
  next hzero =>
    cases h
    exact hzero.symm
  next =>
    obtain ⟨hone, ⟨⟩⟩ := ok_of_guard h
    exact hone.symm

theorem isCodeOf_encodeHeader {t lo hi len c : Byte} {i : Instr}
    (h : (decodeFlag c).map (fun cont => Instr.encodeHeader t (joinId lo hi) len cont) = .ok i) :
    IsCodeOf ⟨.host, [1, t, lo, hi, len, c]⟩ i := by
  cases hc : decodeFlag c with
  | error e => rw [hc] at h; cases h
  | ok cont =>
    rw [hc] at h
    cases h
    simp [IsCodeOf, Instr.wellFormed, encode, flagByte_of_decodeFlag hc]

theorem isCodeOf_of_decodeHost {bytes : List Byte} {i : Instr} (h : decodeHost bytes = .ok i) :
    IsCodeOf ⟨.host, bytes⟩ i := by
  unfold decodeHost at h
  split at h
  next => cases h
  split at h
  next => cases h
  split at h
  next hop =>
    subst hop
    split at h
    next => exact isCodeOf_encodeHeader h
    next => cases h
  split at h
  next hop =>
    subst hop
    split at h
    next =>
      cases h
      exact ⟨rfl, rfl⟩
    next => cases h
  obtain ⟨rfl, hrest⟩ := ok_of_guard h
  split at hrest
  next lo hi payload =>
    cases hrest
    exact ⟨rfl, by rw [encode, idLo_joinId, idHi_joinId]⟩
  next => cases hrest

/-! ## The link port -/

/-- A link operation without an operand. -/
theorem isCodeOf_link {op : Byte} {rest : List Byte} {i j : Instr} (hj : IsCodeOf ⟨.link, [op]⟩ j)
    (h : (if rest = [] then Except.ok j else .error DecodeError.wrongLength) = .ok i) :
    IsCodeOf ⟨.link, op :: rest⟩ i := by
  obtain ⟨rfl, ⟨⟩⟩ := ok_of_guard h
  exact hj

theorem isCodeOf_of_decodeLink {bytes : List Byte} {i : Instr} (h : decodeLink bytes = .ok i) :
    IsCodeOf ⟨.link, bytes⟩ i := by
  unfold decodeLink at h
  split at h
  next => cases h
  split at h
  next => cases h
  split at h
  next hop =>
    subst hop
    exact isCodeOf_link ⟨rfl, rfl⟩ h
  split at h
  next hop =>
    subst hop
    exact isCodeOf_link ⟨rfl, rfl⟩ h
  split at h
  next hop =>
    subst hop
    split at h
    next =>
      cases h
      exact ⟨rfl, rfl⟩
    next => cases h
  obtain ⟨rfl, hrest⟩ := ok_of_guard h
  exact isCodeOf_link ⟨rfl, rfl⟩ hrest

/-! ## The clock, `READ_BYTES` and the states -/

/-- The delays stand at their codes (log 7). -/
theorem isCodeOf_decodeClock_byte (d : Byte) :
    ∀ i ∈ (decodeClock [d]).toOption, i.wellFormed = true ∧ encode i = ⟨.clock, [d]⟩ := by
  revert d
  decide

theorem isCodeOf_of_decodeClock {bytes : List Byte} {i : Instr} (h : decodeClock bytes = .ok i) :
    IsCodeOf ⟨.clock, bytes⟩ i := by
  match bytes with
  | [] =>
    cases h
    exact ⟨rfl, rfl⟩
  | [d] => exact isCodeOf_decodeClock_byte d i (by rw [h]; rfl)
  | _ :: _ :: _ => cases h

theorem readCodes_of_countReads {bytes : List Byte} {n : Nat} (h : countReads bytes = some n) :
    readCodes n = bytes := by
  induction bytes using countReads.induct generalizing n with
  | case1 => cases h; rfl
  | case2 op out rest hcode ih =>
    obtain ⟨rfl, rfl⟩ := hcode
    obtain ⟨m, hm, rfl⟩ : ∃ m, countReads rest = some m ∧ m + 1 = n := by simpa [countReads] using h
    rw [readCodes, ih hm]
  | case3 op out rest hcode =>
    rw [countReads, if_neg hcode] at h
    cases h
  | case4 => cases h

theorem isCodeOf_of_decodePseudo {bytes : List Byte} {i : Instr} (h : decodePseudo bytes = .ok i) :
    IsCodeOf ⟨.pseudo, bytes⟩ i := by
  unfold decodePseudo at h
  split at h
  · cases h
    exact ⟨rfl, congrArg (Code.mk .pseudo) (readCodes_of_countReads ‹_›)⟩
  · cases h

/-- The rows of the FSM stand at their codes (R21). -/
theorem isCodeOf_fsmRows (c : Byte) : ∀ i ∈ fsmRows[c.toNat]?, i.wellFormed = true ∧ encode i = ⟨.fsm, [c]⟩ := by
  revert c
  decide

theorem isCodeOf_of_decodeState {bytes : List Byte} {i : Instr} (h : decodeState bytes = .ok i) :
    IsCodeOf ⟨.fsm, bytes⟩ i := by
  unfold decodeState at h
  split at h
  · split at h
    · cases h
      exact isCodeOf_fsmRows _ _ ‹_›
    · cases h
  · cases h

/-- Settles O40: each port's decoder answers rows whose code it has read. -/
theorem decodedIsWellFormed : Obligations.DecodedIsWellFormed := by
  rintro ⟨port, bytes⟩ i h
  cases port with
  | frame => exact isCodeOf_of_decodeFrame h
  | typeByte =>
    simp only [decode] at h
    split at h
    · cases h
      exact isCodeOf_decodeType _
    · cases h
  | sizeByte =>
    simp only [decode] at h
    split at h
    · cases h
      exact isCodeOf_decodeSize _
    · cases h
  | id => exact isCodeOf_of_decodeId h
  | host => exact isCodeOf_of_decodeHost h
  | link => exact isCodeOf_of_decodeLink h
  | clock => exact isCodeOf_of_decodeClock h
  | pseudo => exact isCodeOf_of_decodePseudo h
  | fsm => exact isCodeOf_of_decodeState h

end Sys2Proof
end

section
/-! An outbound frame row as one write attempt (R86, R153 to R160, R180, log 9): the attempt accepted, in closed form,
and the attempt refused. -/

namespace Sys2Proof.Safety

open Sys2Proof.Machine

/-! ## The echo of the type byte -/

theorem sendType_of_accepted {s : State} (h : s.env.peerByte ≠ 0xFE) :
    s.sendType = (s.transfer 0x10).goto .txIdlo :=
  State.takeEcho_of_ne h

theorem sendType_of_refused {s : State} (h : s.env.peerByte = 0xFE) :
    s.sendType = (s.transfer 0x10).goto .txNrRelease := by
  rw [State.sendType, State.transfer, h]
  exact State.takeEcho_notReady _

theorem sendFrame_of_accepted {s : State} (h : s.env.peerByte ≠ 0xFE) (id : Half) (more : Bool)
    (payload : List Byte) :
    s.sendFrame id more payload =
      (((((s.sendAssert id more payload).sendType.sendIdLo id).sendIdHi id payload.length).sendBody more
        payload).sendRelease payload.length more) := by
  rw [State.sendFrame, sendType_of_accepted (s := s.sendAssert id more payload) h]
  exact if_neg (by simp)

theorem sendFrame_of_refused {s : State} (h : s.env.peerByte = 0xFE) (id : Half) (more : Bool)
    (payload : List Byte) :
    s.sendFrame id more payload =
      (((s.sendAssert id more payload).transfer 0x10).goto .txNrRelease).notReady := by
  rw [State.sendFrame, sendType_of_refused (s := s.sendAssert id more payload) h]
  exact if_pos rfl

/-! ## The attempt accepted -/

/-- What follows the id bytes on the wire (R86): the size byte and the payload, or the filler. -/
def bodyBytes (more : Bool) (payload : List Byte) : List Byte :=
  if payload = [] then [Config.filler] else packSize payload.length more :: payload

/-- The bytes of an outbound frame on the wire, of either form (R86). -/
def frameBytes (id : Half) (more : Bool) (payload : List Byte) : List Byte :=
  Config.tCommand :: idLo id :: idHi id :: bodyBytes more payload

theorem frameBytes_nil (id : Half) (more : Bool) :
    frameBytes id more [] = [0x10, id.extractLsb' 0 8, id.extractLsb' 8 8, 0xFF] := rfl

theorem frameBytes_of_ne {payload : List Byte} (h : payload ≠ []) (id : Half) (more : Bool) :
    frameBytes id more payload = outboundBytes id more payload := by
  rw [frameBytes, bodyBytes, if_neg h]
  rfl

theorem outboundBytes_length (id : Half) (more : Bool) (payload : List Byte) :
    (outboundBytes id more payload).length = 4 + payload.length := by
  simp only [outboundBytes, List.length_cons]
  omega

/-- The body of a frame moves its bytes and leaves the release due; without payload it does not count (R158, R159). -/
theorem sendBody_eq (s : State) (more : Bool) (payload : List Byte) :
    s.sendBody more payload =
      { s with
        env := afterAnswers (bodyBytes more payload).length s.env,
        trace := transfers (bodyBytes more payload) (answers (bodyBytes more payload).length s.env) ++ s.trace,
        byteIx := if payload = [] then s.byteIx else payload.length, st := .txRelease } := by
  by_cases hempty : payload = []
  · subst hempty
    rfl
  · rw [State.sendBody_of_ne hempty, State.sendSize_eq, foldl_sendByte_eq]
    simp [bodyBytes, hempty, answers, afterAnswers]

/-- An attempt accepted: what it leaves in the registers and on the wire (R86, R153 to R160). -/
theorem sendFrame_accepted_eq {s : State} (h : s.env.peerByte ≠ 0xFE) (id : Half) (more : Bool)
    (payload : List Byte) :
    s.sendFrame id more payload =
      { s with
        sel := false, env := afterAnswers (frameBytes id more payload).length s.env,
        trace := .selRelease
          :: transfers (frameBytes id more payload) (answers (frameBytes id more payload).length s.env)
          ++ .selAssert :: s.trace,
        attempts := 0, fType := 0x10, fId := id, fLen := payload.length,
        fSize := if payload.length > 0 then packSize payload.length more else 0x00,
        fPay := s.fPay.writeRange 0 payload,
        byteIx := payload.length, tMark := s.now, txOff := s.txOff + payload.length,
        st := if more then .txIfDelay else .rxSettle } := by
  have hcount : (if payload = [] then 0 else payload.length) = payload.length := by
    cases payload <;> rfl
  rw [sendFrame_of_accepted h, sendType_of_accepted (s := s.sendAssert id more payload) h, State.sendIdHi_eq,
    sendBody_eq]
  simp [State.sendRelease, State.sendIdLo, State.sendAssert, State.transfer, State.takeByte, State.exchange, State.goto,
    State.assertSelect, State.releaseSelect, frameBytes, answers, afterAnswers, hcount, Config.tCommand]

theorem exec_frameOutPayload {s : State} (h : s.st = .txAssert) (id : Half) (more : Bool) (payload : List Byte) :
    exec (.frameOutPayload id more payload) s = .next (s.sendFrame id more payload) :=
  congrArg Host.Outcome.next (if_pos h)

theorem exec_frameOutEmpty {s : State} (h : s.st = .txAssert) (id : Half) :
    exec (.frameOutEmpty id) s = .next (s.sendFrame id false []) :=
  congrArg Host.Outcome.next (if_pos h)

/-- Settles O34, from the accepted attempt with a size byte and a payload behind the id. -/
theorem payloadFrameOnTheWire : Obligations.PayloadFrameOnTheWire := by
  intro s id more payload hst hpos _ hwf hecho
  refine ⟨s.fPay.writeRange 0 payload, ?_, fun i => by simp [Memory.read_writeRange hwf]⟩
  have hne : payload ≠ [] := List.ne_nil_of_length_pos hpos
  have hsize : payload.length > 0 := hpos
  rw [exec_frameOutPayload hst, sendFrame_accepted_eq hecho, frameBytes_of_ne hne, outboundBytes_length, if_pos hsize]
  rfl

/-- Settles O35, from the accepted attempt with the filler behind the id. -/
theorem emptyFrameOnTheWire : Obligations.EmptyFrameOnTheWire := by
  intro s id hst hecho
  rw [exec_frameOutEmpty hst, sendFrame_accepted_eq hecho, frameBytes_nil]
  rfl

/-! ## The attempt refused -/

/-- What a refused attempt is from outside (R180): one byte on the wire, the attempt counted, the offset kept, and the
exit by the ceiling. -/
structure Refused (s v : State) : Prop where
  trace : v.trace = .selRelease :: .xfer 0x10 0xFE :: .selAssert :: s.trace
  sel : v.sel = false
  txOff : v.txOff = s.txOff
  attempts : v.attempts = s.attempts + 1
  env : v.env = s.env.popByte
  last : s.attempts + 1 ≥ 25 → v.st = .done ∧ v.err = .writeTimeout
  again : s.attempts + 1 < 25 → v.st = .txNrDelay ∧ v.err = s.err ∧ v.tMark = s.now

theorem Refused.notReady {s t : State} (htrace : t.trace = .xfer 0x10 0xFE :: .selAssert :: s.trace)
    (hoff : t.txOff = s.txOff) (hattempts : t.attempts = s.attempts + 1) (henv : t.env = s.env.popByte)
    (herr : t.err = s.err) (hnow : t.now = s.now) : Refused s t.notReady := by
  by_cases hlast : 25 ≤ t.attempts
  · rw [State.notReady_of_ge hlast]
    exact ⟨congrArg _ htrace, rfl, hoff, hattempts, henv, fun _ => ⟨rfl, rfl⟩, by omega⟩
  · rw [State.notReady_of_lt (Nat.lt_of_not_le hlast)]
    exact ⟨congrArg _ htrace, rfl, hoff, hattempts, henv, by omega, fun _ => ⟨rfl, herr, hnow⟩⟩

theorem sendFrame_refused {s : State} (h : s.env.peerByte = 0xFE) (id : Half) (more : Bool) (payload : List Byte) :
    Refused s (s.sendFrame id more payload) := by
  rw [sendFrame_of_refused h]
  exact .notReady (by rw [← h]; rfl) rfl rfl rfl rfl rfl

/-- Settles O36: both rows are the one refused attempt, whatever the frame's fields. -/
theorem refusedFramePutsOneByteOnTheWire : Obligations.RefusedFramePutsOneByteOnTheWire := by
  intro s id more payload hst _ _ hecho
  refine ⟨_, _, exec_frameOutPayload hst id more payload, exec_frameOutEmpty hst id, fun v hv => ?_⟩
  obtain ⟨htrace, hsel, hoff, hattempts, henv, hlast, hagain⟩ : Refused s v := by
    obtain rfl | rfl := hv <;> exact sendFrame_refused hecho ..
  exact ⟨htrace, hsel, hoff, hattempts, henv, hlast, hagain⟩

end Sys2Proof.Safety
end

section
/-! Runs of the FSM's rows under quiet inputs (R10): rows that do not test the clock do, one a step, what they do in
one, and beside that only inputs are used up. -/

namespace Sys2Proof.Safety

open Sys2Proof.Machine

theorem elapsed_append (xs ys : List StepInput) : elapsed (xs ++ ys) = elapsed xs + elapsed ys := by
  simp [elapsed]

/-- The state `t` reached from `s` with the inputs `used` taken and `inputs` still to come. -/
def timed (s : State) (used inputs : List StepInput) (t : State) : State :=
  { t with now := s.now + elapsed used,
           env := { t.env with inputs := inputs, inputsDrawn := s.env.inputsDrawn + used.length } }

/-- Where no reset and no request stand, a quiet input is used up and moves the clock, nothing else. -/
theorem nextInputs_timed {s t : State} {x : StepInput} (hrst : t.rst = false) (hreq : t.req = .none)
    (hx : x.reset = false ∧ x.req = .none) (used inputs : List StepInput) :
    (timed s used (x :: inputs) t).nextInputs = timed s (used ++ [x]) inputs t := by
  obtain ⟨hreset, hnone⟩ := hx
  cases t
  subst hrst hreq
  simp [State.nextInputs, timed, Env.stepInput, Env.popInput, hreset, hnone, elapsed, Nat.add_assoc]

/-- A step for each input used leads from `s` to `t`, and no reset or request stands. -/
structure Follows (s : State) (used inputs : List StepInput) (t : State) : Prop where
  run : Host.Core.run Sys2Proof.core used.length s = .next (timed s used inputs t)
  inv : Inv (timed s used inputs t)
  rst : t.rst = false
  req : t.req = .none

theorem Follows.start {s : State} (hinv : Inv s) (hrst : s.rst = false) (hreq : s.req = .none) :
    Follows s [] s.env.inputs s :=
  ⟨rfl, hinv, hrst, hreq⟩

/-- A row of `st` that makes `u` of `t`, whatever the inputs, goes on the run with `u`. -/
theorem Follows.row {s t u : State} {used inputs : List StepInput} {x : StepInput}
    (h : Follows s used (x :: inputs) t) (hx : x.reset = false ∧ x.req = .none)
    (hrow : exec (stRow t.st) (timed s used (x :: inputs) t) = .next (timed s used (x :: inputs) u))
    (hrst : u.rst = t.rst) (hreq : u.req = t.req) : Follows s (used ++ [x]) inputs u := by
  have hbegun : (timed s used (x :: inputs) t).begun = timed s used (x :: inputs) t :=
    begun_of_no_codec h.inv.issued (congrArg codecResult h.req)
  have hnext := nextInputs_timed (s := s) (hrst.trans h.rst) (hreq.trans h.req) hx used inputs
  have hstep : step (timed s used (x :: inputs) t) = .next (timed s (used ++ [x]) inputs u) := by
    rw [step_of_st (s := timed s used (x :: inputs) t) h.rst h.inv.issued, hbegun, ← hnext]
    exact congrArg finishStep hrow
  refine ⟨?_, hnext ▸ (exec_stRow_inv h.inv _ hrow).nextInputs, hrst.trans h.rst, hreq.trans h.req⟩
  rw [List.length_append]
  exact (run_add used.length 1 h.run).trans (run_succ_of_step 0 hstep)

/-! ## The states from the type byte to the release -/

/-- The id, low byte first (R155, R156). -/
theorem Follows.idBytes {s t : State} {x y : StepInput} {used inputs : List StepInput}
    (h : Follows s used (x :: y :: inputs) t) (hx : x.reset = false ∧ x.req = .none)
    (hy : y.reset = false ∧ y.req = .none) (hst : t.st = .txIdlo) :
    Follows s (used ++ [x] ++ [y]) inputs ((t.sendIdLo t.cmdId).sendIdHi t.cmdId t.chunkLen) := by
  have hlow := h.row (u := t.sendIdLo t.cmdId) hx (by rw [hst]; rfl) rfl rfl
  exact hlow.row hy rfl rfl rfl

/-- From the assertion to the id's high byte, one step each (R153 to R156). -/
theorem Follows.header {s : State} {x₁ x₂ x₃ x₄ : StepInput} {inputs : List StepInput} (hinv : Inv s)
    (hst : s.st = .txAssert) (hrst : s.rst = false) (hreq : s.req = .none) (hecho : s.env.peerByte ≠ 0xFE)
    (hinputs : s.env.inputs = x₁ :: x₂ :: x₃ :: x₄ :: inputs) (hquiet : quiet [x₁, x₂, x₃, x₄]) :
    Follows s [x₁, x₂, x₃, x₄] inputs
      (((s.sendAssert s.cmdId s.more (s.txbuf.readRange s.txOff s.chunkLen)).sendType.sendIdLo s.cmdId).sendIdHi
        s.cmdId s.chunkLen) := by
  simp only [quiet, List.forall_mem_cons] at hquiet
  obtain ⟨h₁, h₂, h₃, h₄, -⟩ := hquiet
  have hstart := hinputs ▸ Follows.start hinv hrst hreq
  have hassert := hstart.row (u := s.sendAssert s.cmdId s.more (s.txbuf.readRange s.txOff s.chunkLen)) h₁
    (by rw [hst]; exact execStTxAssert_of_inside hinv.chunk_inside) rfl rfl
  have htype := hassert.row (u := (s.sendAssert s.cmdId s.more _).sendType) h₂ rfl rfl rfl
  rw [sendType_of_accepted (s := s.sendAssert s.cmdId s.more _) hecho] at htype ⊢
  exact htype.idBytes h₃ h₄ rfl

/-- The rest of a chunk, one byte a step (R158). -/
theorem Follows.payload {s t : State} {used xs later : List StepInput} (h : Follows s used (xs ++ later) t)
    (hquiet : quiet xs) (hst : xs ≠ [] → t.st = .txPayload) (hleft : t.byteIx + xs.length = t.chunkLen) :
    Follows s (used ++ xs) later
      ((t.txbuf.readRange (t.txOff + t.byteIx) xs.length).foldl (fun v b => v.sendByte t.chunkLen b) t) := by
  induction xs generalizing used t with
  | nil =>
    rw [List.append_nil]
    exact h
  | cons x xs ih =>
    obtain ⟨hx, hrest⟩ := List.forall_mem_cons.mp hquiet
    have hst := hst (List.cons_ne_nil x xs)
    have hlen : t.byteIx + 1 + xs.length = t.chunkLen := by
      rw [← hleft, List.length_cons]
      omega
    have hsent := h.row (u := t.sendByte t.chunkLen (t.txbuf.read (t.txOff + t.byteIx))) hx
      (by rw [hst]; exact execStTxPayload_of_inside (h.inv.sent_byte_inside hst)) rfl rfl
    have hmore (hne : xs ≠ []) : t.byteIx + 1 ≠ t.chunkLen := by
      have := List.length_pos_iff.mpr hne
      omega
    rw [List.append_cons]
    exact ih hsent hrest (fun hne => if_neg (hmore hne)) hlen

/-- What follows the id: the filler in one step, or the size byte and the payload (R157 to R159). -/
theorem Follows.body {s t : State} {used xs later : List StepInput} (h : Follows s used (xs ++ later) t)
    (hquiet : quiet xs) (hst : t.st = if t.chunkLen > 0 then .txSize else .txFill)
    (hxs : xs.length = 1 + t.chunkLen) :
    Follows s (used ++ xs) later (t.sendBody t.more (t.txbuf.readRange t.txOff t.chunkLen)) := by
  cases xs with
  | nil =>
    rw [List.length_nil] at hxs
    omega
  | cons x xs =>
    obtain ⟨hx, hrest⟩ := List.forall_mem_cons.mp hquiet
    have hlen : xs.length = t.chunkLen := by
      rw [List.length_cons] at hxs
      omega
    rw [List.append_cons]
    by_cases hempty : t.chunkLen = 0
    · obtain rfl : xs = [] := List.length_eq_zero_iff.mp (hlen.trans hempty)
      rw [List.append_nil, hempty]
      exact h.row hx (by rw [hst, hempty]; rfl) rfl rfl
    · have hst : t.st = .txSize := hst.trans (if_pos (Nat.pos_of_ne_zero hempty))
      have hsize := h.row (u := t.sendSize t.chunkLen t.more) hx (by rw [hst]; rfl) rfl rfl
      have hne : t.txbuf.readRange t.txOff t.chunkLen ≠ [] :=
        List.ne_nil_of_length_pos (by rw [Memory.readRange_length]; exact Nat.pos_of_ne_zero hempty)
      rw [State.sendBody_of_ne hne, Memory.readRange_length]
      have hloop := hsize.payload hrest (fun _ => by rw [State.sendSize_eq]) (by rw [hlen]; exact Nat.zero_add _)
      rw [hlen] at hloop
      exact hloop

@[simp] theorem sendBody_st (s : State) (more : Bool) (payload : List Byte) :
    (s.sendBody more payload).st = .txRelease := by
  rw [sendBody_eq]

@[simp] theorem sendBody_chunkLen (s : State) (more : Bool) (payload : List Byte) :
    (s.sendBody more payload).chunkLen = s.chunkLen := by
  rw [sendBody_eq]
  rfl

@[simp] theorem sendBody_more (s : State) (more : Bool) (payload : List Byte) :
    (s.sendBody more payload).more = s.more := by
  rw [sendBody_eq]
  rfl

/-- The release (R160), which samples the clock of its own step. -/
theorem Follows.release {s t : State} {used later : List StepInput} {x : StepInput}
    (h : Follows s used (x :: later) t) (hx : x.reset = false ∧ x.req = .none) (hst : t.st = .txRelease) :
    Follows s (used ++ [x]) later { t.sendRelease t.chunkLen t.more with tMark := s.now + elapsed used } :=
  h.row hx (by rw [hst]; rfl) rfl rfl

/-! ## The frame row -/

/-- An empty chunk is never continued (R152). -/
theorem Inv.more_of_empty_chunk {s : State} (h : Inv s) (hst : s.st = .txAssert) (hempty : s.chunkLen = 0) :
    s.more = false := by
  obtain ⟨⟨-, -, hremains⟩, -⟩ := h.due hst
  rw [State.chunkLen_eq] at hempty
  rw [State.more_eq, State.chunkLen_eq, decide_eq_false_iff_not]
  omega

/-- The frame row of the current chunk, of either form, is one write attempt of that chunk. -/
theorem Inv.exec_frameRow {s : State} (h : Inv s) (hst : s.st = .txAssert) :
    exec (if s.chunkLen = 0 then .frameOutEmpty s.cmdId
      else .frameOutPayload s.cmdId s.more (s.txbuf.readRange s.txOff s.chunkLen)) s =
      .next (s.sendFrame s.cmdId s.more (s.txbuf.readRange s.txOff s.chunkLen)) := by
  by_cases hempty : s.chunkLen = 0
  · rw [if_pos hempty, exec_frameOutEmpty hst, h.more_of_empty_chunk hst hempty, hempty]
    rfl
  · rw [if_neg hempty, exec_frameOutPayload hst]

/-- The send states, one step each, do what the frame row does in one, but for the release's clock sample. -/
theorem Follows.frame {s : State} {xs later : List StepInput} {z : StepInput} (hinv : Inv s) (hst : s.st = .txAssert)
    (hrst : s.rst = false) (hreq : s.req = .none) (hecho : s.env.peerByte ≠ 0xFE)
    (hinputs : s.env.inputs = xs ++ z :: later) (hxs : xs.length = 5 + s.chunkLen) (hquiet : quiet xs)
    (hz : z.reset = false ∧ z.req = .none) :
    Follows s (xs ++ [z]) later
      { s.sendFrame s.cmdId s.more (s.txbuf.readRange s.txOff s.chunkLen) with tMark := s.now + elapsed xs } := by
  match xs with
  | [] | [_] | [_, _] | [_, _, _] => simp at hxs; omega
  | x₁ :: x₂ :: x₃ :: x₄ :: rest =>
    obtain ⟨hfront, hrest⟩ : quiet [x₁, x₂, x₃, x₄] ∧ quiet rest := List.forall_mem_append.mp hquiet
    have hlen : rest.length = 1 + s.chunkLen := by
      simp only [List.length_cons] at hxs
      omega
    have hheader := Follows.header hinv hst hrst hreq hecho hinputs hfront
    have hbody := hheader.body hrest (by rw [State.sendIdHi_eq]; rfl) hlen
    have hrelease := hbody.release hz (sendBody_st ..)
    rw [sendFrame_of_accepted hecho, Memory.readRange_length]
    rw [sendBody_chunkLen, sendBody_more] at hrelease
    exact hrelease

/-- Settles O57: the rows of the send states commute with the inputs, up to the release, which samples the clock. -/
theorem sendStatesRefineTheFrameRow : Obligations.SendStatesRefineTheFrameRow := by
  intro s xs later hinv hst hrst hreq hinputs hlen hquiet hecho
  obtain rfl | ⟨ys, z, rfl⟩ := xs.eq_nil_or_concat
  · simp at hlen
    omega
  rw [List.concat_eq_append] at *
  obtain ⟨hys, hz⟩ := List.forall_mem_append.mp hquiet
  have hrun := Follows.frame hinv hst hrst hreq hecho (hinputs.trans (List.append_assoc ..))
    (by simp at hlen; omega) hys (hz z (List.mem_singleton_self z))
  refine ⟨_, _, hinv.exec_frameRow hst, hlen ▸ hrun.run, ⟨_, _, _, rfl⟩, rfl, Nat.le_add_right .., ?_, rfl⟩
  exact Nat.add_le_add_left (elapsed_append ys [z] ▸ Nat.le_add_right ..) s.now

end Sys2Proof.Safety
end

section
/-! The Response frame row (R88, R210 to R215, log 9): the frame read in closed form, then the append or the
overflow. -/

namespace Sys2Proof.Machine

/-- A run of bytes written reads back. -/
theorem Memory.readRange_writeRange {m : Memory} (h : m.wf = true) (base : Nat) (bs : List Byte) :
    (m.writeRange base bs).readRange base bs.length = bs := by
  refine List.ext_getElem (Memory.readRange_length ..) fun i hi hi' => ?_
  rw [Memory.readRange_getElem, Memory.read_writeRange h, dif_pos ⟨Nat.le_add_right .., by omega⟩]
  simp

end Sys2Proof.Machine

namespace Sys2Proof.Safety

open Sys2Proof.Machine

/-- The transfers of a whole Response frame end with those of its payload. -/
theorem transfers_responseBytes (id : Half) (size : Byte) (payload : List Byte) :
    transfers (List.replicate (4 + payload.length) 0xFF) (responseBytes id size payload) =
      transfers (List.replicate payload.length 0xFF) payload
        ++ [.xfer 0xFF size, .xfer 0xFF (idHi id), .xfer 0xFF (idLo id), .xfer 0xFF 0x20] := by
  rw [← List.replicate_append_replicate, responseBytes]
  simp [transfers, idHi, idLo]

/-- A Response frame in the registers, its bytes on the wire, before the append. -/
def frameRead (id : Half) (size : Byte) (payload : List Byte) (s : State) : State :=
  { s with
    trace := transfers (List.replicate (4 + payload.length) 0xFF) (responseBytes id size payload) ++ s.trace,
    fType := 0x20, fId := id, fSize := size, fLen := payload.length, fPay := s.fPay.writeRange 0 payload,
    byteIx := payload.length, st := .rxAppend }

/-- The frame row is the append or the overflow of the frame read. -/
theorem readFrame_eq (s : State) (id : Half) (cont : Bool) (unused : BitVec 2) {len : BitVec 5}
    {payload : List Byte} (hlen : payload.length = min len.toNat 16) :
    s.readFrame id (sizeBits cont unused len) payload =
      (frameRead id (sizeBits cont unused len) payload s).finishFrame := by
  have hempty : payload = [] → len = 0#5 := by
    rw [← List.length_eq_zero_iff, hlen]
    bv_omega
  refine congrArg State.finishFrame ?_
  rw [show Config.tResponse = 0x20 from rfl, State.takeType_response, State.takeIdLo_takeIdHi,
    State.takeSize_sizeBits, foldl_takePayload_eq, frameRead, transfers_responseBytes]
  simpa [← hlen, State.exchange, Config.filler] using hempty

theorem append_frameRead {s : State} (hwf : s.fPay.wf = true) (id : Half) (size : Byte) (payload : List Byte) :
    (frameRead id size payload s).append =
      { frameRead id size payload s with
        rxbuf := s.rxbuf.writeRange s.rxLen payload, rxLen := s.rxLen + payload.length,
        st := if unpackCont size then .rxPoll else .rxDoneRelease } := by
  have hread : (frameRead id size payload s).fPay.readRange 0 (frameRead id size payload s).fLen = payload :=
    Memory.readRange_writeRange hwf 0 payload
  rw [State.append, hread]
  rfl

/-- Settles O37: the frame is read, then R215's overflow test decides. -/
theorem responseFrameIsReadAndAppended : Obligations.ResponseFrameIsReadAndAppended := by
  intro s id cont unused len payload hst hlen hpay hrx size
  refine ⟨s.fPay.writeRange 0 payload, s.rxbuf.writeRange s.rxLen payload,
    fun i => by simp [Memory.read_writeRange hpay], fun i => Memory.read_writeRange hrx .., ?_⟩
  intro t
  have hsize : size = sizeBits cont unused len := (sizeBits_eq_append cont unused len).symm
  have hrow : exec (.frameInResponse id cont unused len payload) s =
      .next (frameRead id size payload s).finishFrame := by
    rw [hsize, ← readFrame_eq s id cont unused hlen]
    exact congrArg Host.Outcome.next (if_pos hst)
  by_cases hover : s.rxLen + payload.length > s.cfg.rxCap
  · rw [hrow, State.finishFrame_of_gt (s := frameRead id size payload s) hover, if_pos hover]
    rfl
  · have hcont : unpackCont size = cont := by rw [hsize, unpackCont_sizeBits]
    rw [hrow, State.finishFrame_of_le (s := frameRead id size payload s) (Nat.le_of_not_lt hover),
      append_frameRead hpay, if_neg hover, hcont]
    rfl

end Sys2Proof.Safety
end

section
/-! The frame codec (R110 to R113): its two answers in the literals of the rules, and each the other's inverse on the
legal lengths. -/

namespace Sys2Proof.Machine

/-! ## The answers -/

/-- What `ENCODE_HEADER` answers (R110). -/
theorem codecResult_encode (typ : Byte) (id : Half) (length : Byte) (cont : Bool) :
    codecResult (.encodeHeader typ id length cont) =
      some (if length.toNat > 16 then .encFail
        else .header { typ := typ, idLo := id.extractLsb' 0 8, idHi := id.extractLsb' 8 8,
                       size := (if cont then 0x80 else 0x00) ||| length }) := by
  by_cases hlong : length.toNat > 16
  · rw [codecResult_encode_of_gt hlong, if_pos hlong]
  · rw [codecResult_encode_of_le (Nat.le_of_not_lt hlong), if_neg hlong, packSize_eq, BitVec.ofNat_toNat,
      BitVec.setWidth_eq]
    rfl

/-- Settles O1: the operation's one effect is the codec's answer. -/
theorem encodeHeaderGivesFourBytesOrFails : Obligations.EncodeHeaderGivesFourBytesOrFails := by
  intro typ id length cont s
  show execEncodeHeader typ id length cont s = _
  rw [execEncodeHeader, codecResult_encode, Option.getD_some]

/-- Settles O2: the codec answers with the four fields, and R111's literals are those of the model. -/
theorem decodeHeaderSplitsFourBytes : Obligations.DecodeHeaderSplitsFourBytes := by
  intro h s
  show execDecodeHeader h s = _
  rw [execDecodeHeader, codecResult_decode]
  rfl

/-! ## Round trips -/

/-- Settles O3, field by field: the id is joined from its own two bytes, and the size byte gives back the length and
the flag it was packed from. -/
theorem encodeThenDecodeRoundTrips : Obligations.EncodeThenDecodeRoundTrips := by
  intro f hle
  rw [encodeHeaderFields_of_le hle]
  simp only [Option.map_some, decodeHeaderBytes, joinId_idLo_idHi, unpackLen_packSize f.cont hle,
    unpackCont_packSize f.cont hle]

/-- A size byte unpacked and packed again loses its unused bits 6..5 and nothing else (R84, R85). -/
theorem packSize_unpack (b : Byte) : packSize (unpackLen b) (unpackCont b) = b &&& 0x9F := by
  revert b
  decide

/-- Clearing the unused bits changes nothing exactly where they are 0. -/
theorem and_0x9F_eq_self_iff (b : Byte) : b &&& 0x9F = b ↔ b.extractLsb' 5 2 = 0 := by
  revert b
  decide

/-- A decoded header with a legal length encodes to the same header with the unused bits cleared. -/
theorem encode_decode_of_le {h : Header} (hle : unpackLen h.size ≤ 16) :
    encodeHeaderFields (decodeHeaderBytes h) = some { h with size := h.size &&& 0x9F } := by
  rw [encodeHeaderFields_of_le (f := decodeHeaderBytes h) hle]
  simp only [decodeHeaderBytes, idLo_joinId, idHi_joinId, packSize_unpack]

/-- A decoded header with a length above 16 is refused by the encoder, the length not having been clamped. -/
theorem encode_decode_of_gt {h : Header} (hgt : 16 < unpackLen h.size) :
    encodeHeaderFields (decodeHeaderBytes h) = none :=
  encodeHeaderFields_of_gt (f := decodeHeaderBytes h) hgt

/-- A header comes back from the round trip exactly where it has a legal length and its unused bits are 0. -/
theorem encode_decode_eq_some_self_iff (h : Header) :
    encodeHeaderFields (decodeHeaderBytes h) = some h ↔ h.size.extractLsb' 5 2 = 0 ∧ unpackLen h.size ≤ 16 := by
  by_cases hle : unpackLen h.size ≤ 16
  · have hsame : ({ h with size := h.size &&& 0x9F } : Header) = h ↔ h.size &&& 0x9F = h.size :=
      ⟨congrArg Header.size, fun e => by rw [e]⟩
    rw [encode_decode_of_le hle, Option.some_inj, hsame, and_0x9F_eq_self_iff, and_iff_left hle]
  · simp [encode_decode_of_gt (Nat.lt_of_not_le hle), hle]

/-- Settles O4: clauses split at the length 16, and below it the unused bits decide. -/
theorem decodeThenEncodeClearsUnusedBits : Obligations.DecodeThenEncodeClearsUnusedBits :=
  fun h => ⟨encode_decode_of_gt, encode_decode_of_le, encode_decode_eq_some_self_iff h⟩

end Sys2Proof.Machine
end

section
/-! The codec on the host port beside the FSM (R92, R114): no row of `st` tests the value output, and only the entry
step reads the request, for an `EXECUTE`; so a step with a codec request is the step without one and the answer. -/

namespace Sys2Proof.Machine

/-- The state with the request `r` on the host port. -/
def requesting (r : HostReq) (s : State) : State :=
  { s with req := r }

/-- The state with the request `r` on the host port and its answer `v` on the value output. -/
def answered (r : HostReq) (v : OpResult) (s : State) : State :=
  { s with req := r, result := v }

/-! ## Operations that choose between states choose alike whatever is on the port -/

section
variable (r : HostReq) (v : OpResult) (s : State)

theorem answered_notReady : (answered r v s).notReady = answered r v s.notReady := by
  rw [State.notReady, State.notReady, apply_ite (answered r v)]
  rfl

theorem answered_finishFrame : (answered r v s).finishFrame = answered r v s.finishFrame := by
  rw [State.finishFrame, State.finishFrame, apply_ite (answered r v)]
  rfl

theorem answered_takeType (b : Byte) :
    (answered r v s).takeByte.takeType b = answered r v (s.takeByte.takeType b) := by
  unfold State.takeType
  cases typeClass b <;> rfl

theorem answered_poll : Yields (execStRxPoll s) fun u => execStRxPoll (answered r v s) = .next (answered r v u) :=
  .next (by
    rw [execStRxPoll, apply_ite (answered r v)]
    rfl)

end

/-! ## Every row -/

/-- A row of `st` does the same with a codec request answered as without a request. -/
theorem exec_stRow_answered {r : HostReq} {v : OpResult} {s : State} (x : St) (hnone : s.req = .none)
    (hcodec : codecResult r = some v) :
    Yields (exec (stRow x) s) fun u => exec (stRow x) (answered r v s) = .next (answered r v u) := by
  cases x with
  | idle | done =>
    have hport : ∀ id payload, r ≠ .execute id payload := by
      rintro id payload rfl
      cases hcodec
    have hentry : (answered r v s).entryStep = answered r v s.entryStep := by
      rw [State.entryStep_of_no_execute (s := s) (by simp [hnone]),
        State.entryStep_of_no_execute (s := answered r v s) hport]
    exact .next (congrArg Host.Outcome.next hentry)
  | txAssert | txPayload | rxPayload => exact .guarded fun hin => if_pos hin
  | rxAppend => exact .guarded fun hin => (if_pos hin).trans (congrArg _ (answered_finishFrame r v s))
  | txNrRelease => exact .next (congrArg Host.Outcome.next (answered_notReady r v s))
  | rxType => exact .next (congrArg Host.Outcome.next (answered_takeType r v s _))
  | rxPoll => exact answered_poll r v s
  | txType | txNrDelay | txIdlo | txIdhi | txSize | txFill | txRelease | txIfDelay | rxSettle | rxAssert
  | rxTogRelease | rxTogDelay1 | rxTogAssert | rxTogDelay2 | rxIdlo | rxIdhi | rxSize | rxDoneRelease
  | failRelease =>
    exact .next rfl

/-! ## The step -/

/-- A step with a codec request begins as the step without a request, and with the answer. -/
theorem begun_answered {r : HostReq} {v : OpResult} (s : State) (hcodec : codecResult r = some v) :
    (requesting r s).begun = answered r v (requesting .none s).begun := by
  have hreq : codecResult (requesting r s).req = some v := hcodec
  rw [State.begun, hreq]
  rfl

/-- The reset input keeps the answer and is otherwise the same (R34, R270). -/
theorem applyReset_answered {r : HostReq} {v : OpResult} (s : State) (hcodec : codecResult r = some v) :
    (requesting r s).applyReset = answered r v (requesting .none s).applyReset := by
  rw [State.applyReset, begun_answered s hcodec]
  rfl

/-- The next step's inputs replace the request; its answer stays. -/
theorem nextInputs_answered (r : HostReq) (v : OpResult) (s : State) :
    (answered r v s).nextInputs = { s.nextInputs with result := v } := rfl

/-- A step with a codec request on the port is the step without a request, with the answer. -/
theorem step_answered {r : HostReq} {v : OpResult} {s t : State} (hcodec : codecResult r = some v)
    (hi : s.issued = none) (h : step (requesting .none s) = .next t) :
    step (requesting r s) = .next { t with result := v } := by
  cases hr : s.rst with
  | true =>
    rw [step_of_rst (s := requesting .none s) hr] at h
    rw [step_of_rst (s := requesting r s) hr, applyReset_answered s hcodec, nextInputs_answered,
      Host.Outcome.next.inj h]
  | false =>
    obtain ⟨u, hu, rfl⟩ := yields_of_step (s := requesting .none s) hr hi h
      (exec_stRow_answered s.st rfl hcodec)
    rw [step_of_st (s := requesting r s) hr hi, begun_answered s hcodec]
    exact congrArg finishStep hu

/-- Settles O5: both requests are codec requests, and their answers are those of R110 and R111. -/
theorem codecRequestDisturbsNoStep : Obligations.CodecRequestDisturbsNoStep :=
  fun _ _ typ id length cont h hi hstep =>
    ⟨step_answered (codecResult_encode typ id length cont) hi hstep, step_answered (codecResult_decode h) hi hstep⟩

end Sys2Proof.Machine
end

section
/-! The link port's operations and the delays (R130 to R136), each as the primitive it is. -/

namespace Sys2Proof.Machine

/-- Settles O6: each operation is its primitive with what the environment drew as the answer, and the primitive's
definition names every field it writes. -/
theorem linkPrimitivesDoTheirEvents : Obligations.LinkPrimitivesDoTheirEvents :=
  fun _ => ⟨rfl, rfl, fun _ => rfl, rfl⟩

/-- `SLEEP` of any delay (R136): the successor once the delay's ticks have passed, else the state as it is. -/
theorem exec_sleep (d : Delay) (s : State) :
    exec (.sleep d) s =
      .next { s with st := if s.now - s.tMark ≥ delayTicks s.cfg d then delayNext d else s.st } := rfl

/-- Settles O9: the one rule for each of the five delays, with its parameter and its successor. -/
theorem sleepLeavesOnceElapsed : Obligations.SleepLeavesOnceElapsed :=
  fun s => ⟨exec_sleep .retry s, exec_sleep .interframe s, exec_sleep .settle s, exec_sleep .rxtogShort s,
    exec_sleep .rxtogMand s⟩

end Sys2Proof.Machine
end

section
/-! The clock (R135): an input, which no instruction and no reset writes; only the next step's inputs move it, by a
natural number. -/

namespace Sys2Proof.Machine

open Sys2Proof.Safety

/-! ## Operations that choose between states leave the clock in each of them -/

/-- Two states that show the same clock, chosen between. -/
theorem ite_now {s t : State} {c : Prop} [Decidable c] {v : Nat} (hs : s.now = v) (ht : t.now = v) :
    (if c then s else t).now = v := by
  split
  · exact hs
  · exact ht

@[simp] theorem State.enter_now (s : State) (id : Half) (payload : List Byte) : (s.enter id payload).now = s.now :=
  ite_now rfl rfl

@[simp] theorem State.entryStep_now (s : State) : s.entryStep.now = s.now := by
  cases hreq : s.req with
  | execute id payload => rw [State.entryStep_of_execute hreq, State.enter_now]
  | none | encodeHeader | decodeHeader => rw [State.entryStep_of_no_execute (by simp [hreq])]

@[simp] theorem State.readStep_now (n : Nat) (s : State) : (s.readStep n).now = s.now := by
  cases n with
  | zero => rfl
  | succ n => exact (congrArg State.now (State.readStep_succ n s)).trans (ite_now rfl rfl)

@[simp] theorem State.notReady_now (s : State) : s.notReady.now = s.now :=
  ite_now rfl rfl

@[simp] theorem State.takeType_now (s : State) (r : Byte) : (s.takeType r).now = s.now := by
  unfold State.takeType
  cases typeClass r <;> rfl

@[simp] theorem State.finishFrame_now (s : State) : s.finishFrame.now = s.now :=
  ite_now rfl rfl

@[simp] theorem State.sendBody_now (s : State) (more : Bool) (payload : List Byte) :
    (s.sendBody more payload).now = s.now := by
  rw [sendBody_eq]

@[simp] theorem State.sendFrame_now (s : State) (id : Half) (more : Bool) (payload : List Byte) :
    (s.sendFrame id more payload).now = s.now :=
  ite_now (State.notReady_now _) (State.sendBody_now ..)

@[simp] theorem State.readFrame_now (s : State) (id : Half) (size : Byte) (payload : List Byte) :
    (s.readFrame id size payload).now = s.now := by
  rw [State.readFrame, State.finishFrame_now, foldl_takePayload_eq]
  exact State.takeType_now ..

@[simp] theorem State.typeArrives_now (s : State) (t : Byte) : (s.typeArrives t).now = s.now :=
  ite_now rfl (ite_now (State.takeType_now ..) rfl)

@[simp] theorem State.sizeMoves_now (s : State) (cont : Bool) (unused : BitVec 2) (len : BitVec 5) :
    (s.sizeMoves cont unused len).now = s.now :=
  ite_now rfl (ite_now (ite_now rfl rfl) rfl)

@[simp] theorem State.idMoves_now (s : State) (id : Half) : (s.idMoves id).now = s.now :=
  ite_now rfl (ite_now rfl rfl)

/-! ## Every instruction, and the step -/

/-- No instruction writes the clock. -/
theorem exec_keeps_now (i : Instr) (s : State) : Yields (exec i s) fun t => t.now = s.now := by
  cases i with
  | frameOutPayload | frameOutEmpty => exact .next (ite_now (State.sendFrame_now ..) rfl)
  | frameInResponse => exact .next (ite_now (State.readFrame_now ..) rfl)
  | typeCommand | typeResponse | typeAlert | typeError | typeDeviceNotReady | typeReadOverflow | typeOther =>
    exact .next (State.typeArrives_now ..)
  | sizeByte => exact .next (State.sizeMoves_now ..)
  | idInit | idAtWrapper => exact .next (State.idMoves_now ..)
  | execute => exact .next (ite_now rfl (State.enter_now ..))
  | readBytes => exact .next (State.readStep_now ..)
  | stIdle | stDone => exact .next (State.entryStep_now s)
  | stTxNrRelease => exact .next (State.notReady_now s)
  | stRxType => exact .next (State.takeType_now ..)
  | stRxPoll => exact .next (ite_now rfl rfl)
  | stTxAssert | stTxPayload | stRxPayload => exact .guarded fun _ => rfl
  | stRxAppend => exact .guarded fun _ => State.finishFrame_now s
  | encodeHeader | decodeHeader | assertSelect | release | transferByte | readyAsserted | now | sleep | stTxType
  | stTxNrDelay | stTxIdlo | stTxIdhi | stTxSize | stTxFill | stTxRelease | stTxIfDelay | stRxSettle | stRxAssert
  | stRxTogRelease | stRxTogDelay1 | stRxTogAssert | stRxTogDelay2 | stRxIdlo | stRxIdhi | stRxSize | stRxDoneRelease
  | stFailRelease =>
    exact .next rfl

/-- A step of either kind ends with the clock it began with, moved on by the next step's inputs. -/
theorem step_now {s t : State} (h : step s = .next t) : ∃ advance, t.now = s.now + advance := by
  obtain ⟨-, rfl⟩ | ⟨-, i, u, -, hexec, rfl⟩ := step_cases h
  · exact ⟨_, State.nextInputs_now _⟩
  · have hkept : u.now = s.now := exec_keeps_now i s.begun u hexec
    exact ⟨_, hkept ▸ State.nextInputs_now u⟩

/-- Settles O8: the clock is a natural number that steps only add to. -/
theorem clockIsReadAndNeverRunsBack : Obligations.ClockIsReadAndNeverRunsBack := by
  refine fun s => ⟨rfl, fun t h => ?_⟩
  obtain ⟨advance, hnow⟩ := step_now h
  exact hnow ▸ Nat.le_add_right ..

end Sys2Proof.Machine
end

section
/-! `READ_BYTES(n)` put before the block (R133, R94, D26): each step makes one transfer and takes the next inputs, and
after the last one nothing of it is left but the answer. -/

namespace Sys2Proof.Safety

open Sys2Proof.Machine

/-! ## What the environment supplies -/

/-- The inputs of a step are drawn apart from the peer's bytes. -/
theorem answers_popInput (n : Nat) (e : Env) : answers n e.popInput = answers n e := by
  induction n generalizing e with
  | zero => rfl
  | succ n ih => exact congrArg (e.peerByte :: ·) (ih e.popByte)

/-- From `e` to `e'` the peer has answered `n` times and the listed inputs before `later` are used up. -/
structure Served (n : Nat) (later : List StepInput) (e e' : Env) : Prop where
  inputs : e'.inputs = later
  levels : e'.levels = e.levels
  bytes : e'.bytes = e.bytes.drop n

/-- One more step before: a byte of the peer and the step's input. -/
theorem Served.before {n : Nat} {later : List StepInput} {e e' : Env} (h : Served n later e.popByte.popInput e') :
    Served (n + 1) later e e' :=
  ⟨h.inputs, h.levels, h.bytes.trans (List.drop_tail ..)⟩

/-! ## The steps and the run -/

/-- What a `READ_BYTES` makes of `s` when its last transfers have been made, one a step, the inputs `xs` used up: the
bytes read before and then the answers are the value output. -/
def readDone (xs : List StepInput) (e : Env) (req : HostReq) (s : State) : State :=
  { s with env := e, req := req, now := s.now + elapsed xs, issued := none, readBuf := [],
           trace := transfers (List.replicate xs.length 0xFF) (answers xs.length s.env) ++ s.trace,
           result := .bytes (s.readBuf ++ answers xs.length s.env) }

/-- What a step with a transfer, others still to come, makes of `s`: the rest of the code before the block,
the answer behind those read before. -/
def readOn (n : Nat) (x : StepInput) (s : State) : State :=
  { s with env := s.env.popByte.popInput, req := x.req, now := s.now + x.advance,
           trace := .xfer 0xFF s.env.peerByte :: s.trace, issued := some (encode (.readBytes n)),
           readBuf := s.readBuf ++ [s.env.peerByte], result := (codecResult s.req).getD s.result }

/-- A listed input without reset is used up: it is the next step's clock advance and request, and nothing else. -/
theorem nextInputs_of_listed {t : State} {x : StepInput} {inputs : List StepInput} (hr : t.rst = false)
    (hinputs : t.env.inputs = x :: inputs) (hx : x.reset = false) :
    t.nextInputs = { t with now := t.now + x.advance, req := x.req, env := t.env.popInput } := by
  have hdrawn : t.env.stepInput = x := by rw [Env.stepInput, hinputs, List.headD_cons]
  rw [State.nextInputs, hdrawn, hx, hr]

section
variable {s : State} {x : StepInput} {inputs : List StepInput} (hr : s.rst = false)
  (hinputs : s.env.inputs = x :: inputs) (hx : x.reset = false)
include hr hinputs hx

/-- The step of the last transfer. -/
theorem step_readBytes_last (hi : s.issued = some (encode (.readBytes 1))) :
    step s = .next (readDone [x] s.env.popByte.popInput x.req s) := by
  rw [step_of_readBytes 0 hr hi, if_pos rfl]
  exact congrArg _ (nextInputs_of_listed hr hinputs hx)

/-- The step of a transfer with others to come. -/
theorem step_readBytes_next (n : Nat) (hi : s.issued = some (encode (.readBytes (n + 2)))) :
    step s = .next (readOn (n + 1) x s) := by
  rw [step_of_readBytes (n + 1) hr hi, if_neg n.succ_ne_zero]
  exact congrArg _ (nextInputs_of_listed hr hinputs hx)

end

/-- The transfers before the last one and those after are one `READ_BYTES`. -/
theorem readDone_readOn (n : Nat) (x : StepInput) (xs : List StepInput) (e : Env) (req : HostReq) (s : State) :
    readDone xs e req (readOn n x s) = readDone (x :: xs) e req s := by
  simp [readDone, readOn, answers_popInput, answers, elapsed, List.replicate_succ, Nat.add_assoc]

/-- The rest of a `READ_BYTES`, a transfer for each of the inputs to come, whatever has been read before. -/
theorem run_readBytes (xs later : List StepInput) {s : State} (hi : s.issued = some (encode (.readBytes xs.length)))
    (hne : xs ≠ []) (hr : s.rst = false) (hinputs : s.env.inputs = xs ++ later) (hquiet : ∀ x ∈ xs, x.reset = false) :
    ∃ e req, Host.Core.run Sys2Proof.core xs.length s = .next (readDone xs e req s) ∧
      Served xs.length later s.env e := by
  induction xs generalizing s with
  | nil => exact absurd rfl hne
  | cons x xs ih =>
    obtain ⟨hx, hrest⟩ := List.forall_mem_cons.mp hquiet
    have hleft : s.env.popByte.popInput.inputs = xs ++ later := congrArg List.tail hinputs
    cases xs with
    | nil =>
      have hlast := step_readBytes_last hr hinputs hx hi
      exact ⟨_, _, run_succ_of_step 0 hlast, Served.before ⟨hleft, rfl, rfl⟩⟩
    | cons y ys =>
      have hnext := step_readBytes_next hr hinputs hx ys.length hi
      obtain ⟨e, req, hrun, hserved⟩ := ih (s := readOn (ys.length + 1) x s) rfl (List.cons_ne_nil y ys) hr hleft hrest
      refine ⟨e, req, ?_, hserved.before⟩
      exact (run_succ_of_step _ hnext).trans (hrun.trans (congrArg _ (readDone_readOn ..)))

/-- Settles O7: one step is what `READ_BYTES`' laws say, the run is that of `run_readBytes` with nothing read before,
and reset drops both fields. -/
theorem readBytesIsRepeatedTransfer : Obligations.ReadBytesIsRepeatedTransfer := by
  refine ⟨fun s => rfl, fun n s => congrArg Host.Outcome.next (State.readStep_succ n s), ?_, ?_, ?_⟩
  · intro n s xs later hpos hi hbuf hr hinputs hlen hquiet
    subst hlen
    obtain ⟨e, req, hrun, hserved⟩ :=
      run_readBytes xs later hi (List.ne_nil_of_length_pos hpos) hr hinputs hquiet
    refine ⟨e, req, hrun.trans ?_, hserved.inputs, hserved.levels, hserved.bytes⟩
    rw [readDone, hbuf, List.nil_append]
  · rintro _ e listed rest hbytes rfl
    exact (answers_of_listed listed rest e hbytes).1
  · intro s t hr h
    obtain rfl := Host.Outcome.next.inj ((step_of_rst hr).symm.trans h)
    exact ⟨State.applyReset_issued s, State.applyReset_readBuf s⟩

end Sys2Proof.Safety
end

section
/-! The entry step (R150, R151, R165, R218): in the two states that are not busy it reads the request, and in every
other state a request has no effect. -/

namespace Sys2Proof.Machine

/-! ## The two resting states -/

/-- Settles O11: without an `EXECUTE` the entry step, which both states run, changes nothing. -/
theorem withoutExecuteTheBlockWaits : Obligations.WithoutExecuteTheBlockWaits := by
  intro s h
  have hentry : s.entryStep = s := State.entryStep_of_no_execute h
  exact ⟨congrArg Host.Outcome.next hentry, congrArg Host.Outcome.next hentry⟩

theorem execExecute_of_resting {s : State} (h : s.st = .idle ∨ s.st = .done) (id : Half) (payload : List Byte) :
    execExecute id payload s = .next (s.enter id payload) := by
  have hbusy : ¬ s.busy = true := by
    rw [State.busy_iff]
    exact fun ⟨hidle, hdone⟩ => h.elim hidle hdone
  rw [execExecute, if_neg hbusy]

theorem execExecute_of_busy {s : State} (hidle : s.st ≠ .idle) (hdone : s.st ≠ .done) (id : Half)
    (payload : List Byte) : execExecute id payload s = .next s := by
  rw [execExecute, if_pos (s.busy_iff.mpr ⟨hidle, hdone⟩)]

/-- The request on the port, from `IDLE` and from `DONE`, and the operation lead to the one entry step (R150, R151,
R218). -/
theorem exec_of_enter {s t : State} {id : Half} {payload : List Byte} (h : s.enter id payload = t) :
    (s.req = .execute id payload → exec .stIdle s = .next t ∧ exec .stDone s = .next t) ∧
    (s.st = .idle ∨ s.st = .done → exec (.execute id payload) s = .next t) := by
  subst h
  refine ⟨fun hreq => ?_, fun hst => execExecute_of_resting hst id payload⟩
  have hentry := State.entryStep_of_execute hreq
  exact ⟨congrArg Host.Outcome.next hentry, congrArg Host.Outcome.next hentry⟩

/-- Settles O12: the entry step where the payload does not fit; the empty scratch reads 0 everywhere. -/
theorem tooLongPayloadIsRejectedAtEntry : Obligations.TooLongPayloadIsRejectedAtEntry := by
  intro s id payload hgt rejected
  obtain ⟨hport, hop⟩ := exec_of_enter (State.enter_of_gt (id := id) hgt)
  exact ⟨hport, hop, Memory.read_nil⟩

/-- Settles O13: the entry step where the payload fits; what `txbuf` then reads as is the law of a run of writes. -/
theorem executeStartsAnExchange : Obligations.ExecuteStartsAnExchange := by
  intro s id payload hle hwf
  refine ⟨s.txbuf.writeRange 0 payload, fun i => ?_, exec_of_enter (State.enter_of_le hle)⟩
  simpa using Memory.read_writeRange hwf 0 payload i

/-! ## While busy -/

/-- Two choices whose branches are alike but for what the next inputs replace are alike after them. -/
theorem nextInputs_ite {t u t' u' : State} {c : Prop} [Decidable c] (ht : t.nextInputs = t'.nextInputs)
    (hu : u.nextInputs = u'.nextInputs) :
    (if c then t else u).nextInputs = (if c then t' else u').nextInputs := by
  split
  · exact ht
  · exact hu

theorem finishStep_next_congr {t t' : State} (h : t.nextInputs = t'.nextInputs) :
    finishStep (.next t) = finishStep (.next t') :=
  congrArg Host.Outcome.next h

/-- Rows that fault under the same guard finish alike where their next states do. -/
theorem finishStep_guarded_congr {t t' : State} {c : Prop} [Decidable c] {f : Fault}
    (h : t.nextInputs = t'.nextInputs) :
    finishStep (if c then .next t else .fault f) = finishStep (if c then .next t' else .fault f) := by
  split
  · exact finishStep_next_congr h
  · rfl

/-- The byte in the type position is classified alike whatever is on the port. -/
theorem nextInputs_takeType_requesting (r : HostReq) (s : State) (b : Byte) :
    ((requesting r s).takeByte.takeType b).nextInputs = (s.takeByte.takeType b).nextInputs := by
  unfold State.takeType
  cases typeClass b <;> rfl

/-- No row but those of `IDLE` and `DONE` reads the host port, and the next inputs replace what stands there. -/
theorem finishStep_exec_stRow_requesting {x : St} (hidle : x ≠ .idle) (hdone : x ≠ .done) (r : HostReq) (s : State) :
    finishStep (exec (stRow x) (requesting r s)) = finishStep (exec (stRow x) s) := by
  cases x with
  | idle => exact absurd rfl hidle
  | done => exact absurd rfl hdone
  | txAssert | txPayload | rxPayload => exact finishStep_guarded_congr rfl
  | rxAppend => exact finishStep_guarded_congr (nextInputs_ite rfl rfl)
  | txNrRelease | rxPoll => exact finishStep_next_congr (nextInputs_ite rfl rfl)
  | rxType => exact finishStep_next_congr (nextInputs_takeType_requesting ..)
  | txType | txNrDelay | txIdlo | txIdhi | txSize | txFill | txRelease | txIfDelay | rxSettle | rxAssert
  | rxTogRelease | rxTogDelay1 | rxTogAssert | rxTogDelay2 | rxIdlo | rxIdhi | rxSize | rxDoneRelease
  | failRelease =>
    exact finishStep_next_congr rfl

/-- Settles O14: the operation tests `busy`, and a request on the port is read by no row of a busy state. -/
theorem requestWhileBusyIsLost : Obligations.RequestWhileBusyIsLost := by
  intro s id payload hidle hdone
  refine ⟨execExecute_of_busy hidle hdone id payload, fun hr hi => ?_⟩
  have hstep (r : HostReq) : step (requesting r s) = finishStep (exec (stRow s.st) (requesting r s).begun) :=
    step_of_st (s := requesting r s) hr hi
  calc step (requesting (.execute id payload) s)
      = finishStep (exec (stRow s.st) (requesting (.execute id payload) (requesting .none s).begun)) := hstep _
    _ = finishStep (exec (stRow s.st) (requesting .none s).begun) := finishStep_exec_stRow_requesting hidle hdone ..
    _ = step (requesting .none s) := (hstep .none).symm

end Sys2Proof.Machine
end

section
/-! The send states (R152 to R160): each state's row in the literals of its rule, and the chunks of a payload in
order. -/

namespace Sys2Proof.Machine

open Sys2Proof.Safety

/-! ## One row each -/

/-- A choice by `more`, in the words of R152. -/
theorem State.ite_more {α : Type} (s : State) (a b : α) :
    (if s.more then a else b) = if s.txOff + min 16 (s.txLen - s.txOff) < s.txLen then a else b := by
  by_cases h : s.more = true
  · exact (if_pos h).trans (if_pos (s.more_iff.mp h)).symm
  · exact (if_neg h).trans (if_neg (mt s.more_iff.mpr h)).symm

/-- Settles O15: the chunk lies in `txbuf`, so the row answers the frame's start, the chunk as its payload. -/
theorem txAssertSelectsAndLoadsScratch : Obligations.TxAssertSelectsAndLoadsScratch := by
  intro s hwf n hin
  have hlen : (s.txbuf.readRange s.txOff s.chunkLen).length = n := Memory.readRange_length ..
  refine ⟨s.fPay.writeRange 0 (s.txbuf.readRange s.txOff s.chunkLen), ?_, fun i => ?_⟩
  · refine (execStTxAssert_of_inside hin).trans (congrArg Host.Outcome.next ?_)
    rw [State.sendAssert, hlen, packSize_eq, s.ite_more]
    rfl
  · rw [Memory.read_writeRange hwf]
    simp only [Nat.zero_le, Nat.sub_zero, true_and, hlen, Memory.readRange_getElem, dite_eq_ite]

/-- Settles O16: each row is one transfer; the two choices are by the echo and, under the four-byte reading of the
no-payload frame (D23), by the chunk's length alone. -/
theorem txHeaderStatesSendTypeAndId : Obligations.TxHeaderStatesSendTypeAndId :=
  fun s => ⟨rfl, rfl, congrArg Host.Outcome.next (s.sendIdHi_eq s.cmdId s.chunkLen), rfl⟩

/-- Settles O17: the byte is `packSize` of the chunk, and so is the encoder's fourth, a chunk having at most 16
bytes. -/
theorem txSizeSendsThePackedSize : Obligations.TxSizeSendsThePackedSize := by
  intro s n more size
  refine ⟨congrArg Host.Outcome.next (s.sendSize_eq s.chunkLen s.more), ?_⟩
  rw [encodeHeaderFields_of_le s.chunkLen_le]
  rfl

/-- Settles O18: the index lies in `txbuf`, so the row answers the byte's transfer. -/
theorem txPayloadSendsOneByte : Obligations.TxPayloadSendsOneByte :=
  fun _ hin => execStTxPayload_of_inside hin

/-- `TX_RELEASE`, which never stops (R160). -/
theorem exec_stTxRelease (s : State) : exec .stTxRelease s = .next (s.sendRelease s.chunkLen s.more) := rfl

/-- Settles O19: the release with the chunk's length and flag, the flag in the words of R152. -/
theorem txReleaseEndsTheFrame : Obligations.TxReleaseEndsTheFrame := by
  intro s n
  rw [exec_stTxRelease, State.sendRelease, s.ite_more]
  rfl

/-! ## The chunks in order -/

theorem afterReleases_succ (k : Nat) (s : State) :
    afterReleases (k + 1) s = afterReleases k (s.sendRelease s.chunkLen s.more) := rfl

theorem afterReleases_txLen (k : Nat) (s : State) : (afterReleases k s).txLen = s.txLen := by
  induction k generalizing s with
  | zero => rfl
  | succ k ih => rw [afterReleases_succ, ih, State.sendRelease, State.releaseSelect_txLen]

/-- Each release moves the offset by 16 bytes, or to the end where fewer remain. -/
theorem afterReleases_txOff (k : Nat) {s : State} (h : s.txOff ≤ s.txLen) :
    (afterReleases k s).txOff = min s.txLen (s.txOff + 16 * k) := by
  induction k generalizing s with
  | zero => exact (Nat.min_eq_right h).symm
  | succ k ih =>
    have hoff : (s.sendRelease s.chunkLen s.more).txOff = s.txOff + min 16 (s.txLen - s.txOff) := rfl
    have hlen : (s.sendRelease s.chunkLen s.more).txLen = s.txLen := rfl
    rw [afterReleases_succ, ih (by omega), hoff, hlen]
    omega

/-- Settles O20: the offset after `k` releases is the least of `16 k` and the length, and the rest is arithmetic. -/
theorem chunksAreSixteenBytesInOrder : Obligations.ChunksAreSixteenBytesInOrder := by
  intro s k hstart hk
  have hoff (j : Nat) : (afterReleases j s).txOff = min s.txLen (16 * j) := by
    rw [afterReleases_txOff j (by omega), hstart, Nat.zero_add]
  have hbefore : (afterReleases k s).txOff = 16 * k := by
    rw [hoff]
    omega
  have hchunk : (afterReleases k s).chunkLen = min 16 (s.txLen - 16 * k) := by
    rw [State.chunkLen_eq, afterReleases_txLen, hbefore]
  refine ⟨hbefore, hchunk, ?_, fun hlast => ?_⟩
  · rw [State.more_iff, hchunk, hbefore, afterReleases_txLen]
    omega
  · rw [hoff]
    omega

end Sys2Proof.Machine
end

section
/-! The peer's answers while a frame is sent (R162): after the type byte the send states take each answer into the trace
and test it nowhere. -/

namespace Sys2Proof.Safety

open Sys2Proof.Machine

/-- The state with the peer's coming answers given. -/
def answeredWith (bytes : List Byte) (s : State) : State :=
  { s with env := { s.env with bytes := bytes } }

/-- The answer `b` reaches `u` in the recorded transfer alone: with `c` in its place the row of `x` differs there. -/
def Discards (x : St) (s : State) (b c : Byte) (rest : List Byte) (u : State) : Prop :=
  ∃ out, u.trace = .xfer out b :: s.trace ∧
    exec (stRow x) (answeredWith (c :: rest) s) = .next { u with trace := .xfer out c :: s.trace }

theorem exec_stRow_discards {x : St} (hx : x = .txIdlo ∨ x = .txIdhi ∨ x = .txSize ∨ x = .txPayload ∨ x = .txFill)
    (s : State) (b c : Byte) (rest : List Byte) :
    Yields (exec (stRow x) (answeredWith (b :: rest) s)) (Discards x s b c rest) := by
  cases x with
  | txIdlo | txIdhi | txSize | txFill => exact .next ⟨_, rfl, rfl⟩
  | txPayload => exact .guarded fun hin => ⟨_, rfl, if_pos hin⟩
  | _ => simp at hx

/-- Settles O56: the row of `st` discards the answer, and the step around it reads no answer. -/
theorem answersWhileSendingAreDiscarded : Obligations.AnswersWhileSendingAreDiscarded := by
  intro s t b c rest hinv hr hst h
  obtain ⟨u, ⟨out, htrace, hrow⟩, rfl⟩ :=
    yields_of_step (s := answeredWith (b :: rest) s) hr hinv.issued h (exec_stRow_discards hst s.begun b c rest)
  have hstep : step (answeredWith (c :: rest) s) = finishStep (exec (stRow s.st) (answeredWith (c :: rest) s.begun)) :=
    step_of_st (s := answeredWith (c :: rest) s) hr hinv.issued
  exact ⟨out, htrace, hstep.trans (congrArg finishStep hrow)⟩

end Sys2Proof.Safety
end

section
/-! The handshake's and the poller's states (R180, R181, R183 to R190): each state's row in the literals of its rule. -/

namespace Sys2Proof.Machine

/-- A delay's answer (R136), in the words of the rules of the delay states. -/
theorem next_sleepIn (d : Delay) (stay : St) (s : State) :
    (.next (s.sleepIn d stay) : Host.Outcome State Fault Refusal) =
      .next { s with st := if s.now - s.tMark ≥ delayTicks s.cfg d then delayNext d else stay } := rfl

/-- A delay that has lasted its ticks is left for its successor (R136). -/
theorem State.sleepIn_of_elapsed {s : State} {d : Delay} (h : s.now - s.tMark ≥ delayTicks s.cfg d) (stay : St) :
    s.sleepIn d stay = s.goto (delayNext d) :=
  congrArg (fun x => s.goto x) (if_pos h)

/-- Settles O10: each state is the delay named for it, with its parameter and its successor. -/
theorem delayStatesHoldTheirDelay : Obligations.DelayStatesHoldTheirDelay :=
  fun s => ⟨next_sleepIn .retry .txNrDelay s, next_sleepIn .interframe .txIfDelay s, next_sleepIn .settle .rxSettle s,
    next_sleepIn .rxtogShort .rxTogDelay1 s, next_sleepIn .rxtogMand .rxTogDelay2 s⟩

/-- Settles O21: the row is `notReady`, whose two cases are those of the ceiling. -/
theorem notReadyEchoRetriesOrTimesOut : Obligations.NotReadyEchoRetriesOrTimesOut := by
  refine fun s => congrArg Host.Outcome.next ?_
  by_cases hlast : 25 ≤ s.attempts
  · exact (State.notReady_of_ge hlast).trans (if_pos hlast).symm
  · exact (State.notReady_of_lt (Nat.lt_of_not_le hlast)).trans (if_neg hlast).symm

/-- Settles O22: each row is one move of select and one sample of the clock, written by name. -/
theorem receiveSelectStatesStampTheClock : Obligations.ReceiveSelectStatesStampTheClock :=
  fun _ => ⟨rfl, rfl, rfl⟩

/-- Settles O23: past the window the row fails, inside it it samples. -/
theorem rxPollTestsTheWindowFirst : Obligations.RxPollTestsTheWindowFirst := by
  intro s
  by_cases hwindow : s.now - s.tRx ≥ s.cfg.readTimeout
  · rw [if_pos hwindow]
    exact execStRxPoll_of_elapsed hwindow
  · rw [if_neg hwindow]
    exact execStRxPoll_of_open hwindow

end Sys2Proof.Machine
end

section
/-! The end of the read window (R186, R192, R243, R249): the failing poll and the release, whatever the host port
carries meanwhile. -/

namespace Sys2Proof.Safety

open Sys2Proof.Machine

/-- Settles O60: the poll fails without a sample, and the failure exit releases select; the error keeps what was
accumulated from the host. -/
theorem elapsedWindowEndsInReadTimeout : Obligations.ElapsedWindowEndsInReadTimeout := by
  intro s x later hinv hst hrst hinputs hx hwindow
  have hpoll : exec (stRow s.st) s.begun = .next (s.begun.fail .readTimeout true) := by
    rw [hst]
    exact execStRxPoll_of_elapsed (s := s.begun) hwindow
  have hdrawn : s.env.stepInput = x := by rw [Env.stepInput, hinputs, List.headD_cons]
  have hquiet : (s.begun.fail .readTimeout true).nextInputs.rst = false := (congrArg StepInput.reset hdrawn).trans hx
  have hrun := (run_succ_of_exec 1 hrst hinv.issued hpoll).trans (run_succ_of_exec 0 hquiet rfl rfl)
  exact ⟨_, hrun, rfl, rfl, rfl, rfl, rfl, if_neg (by rintro ⟨-, ⟨⟩⟩), rfl⟩

end Sys2Proof.Safety
end

section
/-! The ceiling on write attempts (R180 to R182, R192): a refused attempt and its retry delay are four steps that lead
back to the frame's start, and the last attempt's three steps end in `WriteTimeout`. -/

namespace Sys2Proof.Safety

open Sys2Proof.Machine

/-! ## One refused attempt -/

/-- What `n` refused attempts of a frame come to in `t`: they are counted and on the wire, and neither the message nor
the response has moved. -/
structure Refusals (s : State) (n : Nat) (t : State) : Prop where
  attempts : t.attempts = s.attempts + n
  txOff : t.txOff = s.txOff
  rxLen : t.rxLen = s.rxLen
  cfg : t.cfg = s.cfg
  trace : t.trace = refusedAttempts n ++ s.trace

theorem Refusals.start (s : State) : Refusals s 0 s :=
  ⟨rfl, rfl, rfl, rfl, rfl⟩

/-- The frame's start and its type byte echoed with 0xFE (R153, R154). -/
def echoRefused (s : State) : State :=
  (s.sendAssert s.cmdId s.more (s.txbuf.readRange s.txOff s.chunkLen)).takeByte.takeEcho 0xFE

/-- The release behind the refusal, at the clock reading `now`, with an attempt left (R180). -/
def retryDue (now : Nat) (s : State) : State :=
  { (echoRefused s).releaseSelect with tMark := now, st := .txNrDelay }

/-- The release behind the last refusal (R180). -/
def timedOut (s : State) : State :=
  (echoRefused s).releaseSelect.fail .writeTimeout false

/-- Another attempt refused, whatever its outcome. -/
theorem Refusals.release {s t : State} {n : Nat} (h : Refusals s n t) :
    Refusals s (n + 1) (echoRefused t).releaseSelect :=
  ⟨congrArg (· + 1) h.attempts, h.txOff, h.rxLen, h.cfg, congrArg (_ :: _ :: _ :: ·) h.trace⟩

/-! ## Its steps -/

section
variable {s t : State} {x₁ x₂ x₃ x₄ : StepInput} {used later : List StepInput}

/-- Two steps to the refused echo. -/
theorem Follows.echoRefused (h : Follows s used (x₁ :: x₂ :: later) t) (hquiet : quiet [x₁, x₂])
    (hst : t.st = .txAssert) (hecho : t.env.peerByte = 0xFE) :
    Follows s (used ++ [x₁, x₂]) later (echoRefused t) := by
  simp only [quiet, List.forall_mem_cons] at hquiet
  obtain ⟨h₁, h₂, -⟩ := hquiet
  have hassert := h.row (u := t.sendAssert t.cmdId t.more (t.txbuf.readRange t.txOff t.chunkLen)) h₁
    (by rw [hst]; exact execStTxAssert_of_inside h.inv.chunk_inside) rfl rfl
  have htype := hassert.row (u := (t.sendAssert t.cmdId t.more _).sendType) h₂ rfl rfl rfl
  rw [State.sendType, show (t.sendAssert t.cmdId t.more _).env.peerByte = 0xFE from hecho] at htype
  rw [List.append_cons]
  exact htype

/-- Four steps, where an attempt is left and the clock advances past the delay behind the release, are back at the
frame's start (R180, R181). -/
theorem Follows.retry (h : Follows s used (x₁ :: x₂ :: x₃ :: x₄ :: later) t) (hquiet : quiet [x₁, x₂, x₃, x₄])
    (hst : t.st = .txAssert) (hecho : t.env.peerByte = 0xFE) (hleft : t.attempts + 1 < 25)
    (hdelay : t.cfg.tRetry ≤ x₃.advance) :
    Follows s (used ++ [x₁, x₂, x₃, x₄]) later
      ((retryDue (s.now + elapsed (used ++ [x₁, x₂])) t).goto .txAssert) := by
  obtain ⟨hfront, hback⟩ : quiet [x₁, x₂] ∧ quiet [x₃, x₄] := List.forall_mem_append.mp hquiet
  simp only [quiet, List.forall_mem_cons] at hback
  obtain ⟨h₃, h₄, -⟩ := hback
  have hrelease := (h.echoRefused hfront hst hecho).row (u := retryDue (s.now + elapsed (used ++ [x₁, x₂])) t) h₃
    (congrArg Host.Outcome.next (State.notReady_of_lt hleft)) rfl rfl
  have hpassed : s.now + elapsed (used ++ [x₁, x₂] ++ [x₃]) - (s.now + elapsed (used ++ [x₁, x₂])) ≥ t.cfg.tRetry := by
    rw [elapsed_append _ [x₃], ← Nat.add_assoc, Nat.add_sub_cancel_left]
    exact hdelay
  have hback := hrelease.row (u := (retryDue _ t).goto .txAssert) h₄
    (congrArg Host.Outcome.next (State.sleepIn_of_elapsed (d := .retry) hpassed .txNrDelay)) rfl rfl
  simpa using hback

/-- Three steps, where the attempt is the last, end the exchange (R180). -/
theorem Follows.timeOut (h : Follows s used (x₁ :: x₂ :: x₃ :: later) t) (hquiet : quiet [x₁, x₂, x₃])
    (hst : t.st = .txAssert) (hecho : t.env.peerByte = 0xFE) (hlast : 25 ≤ t.attempts + 1) :
    Follows s (used ++ [x₁, x₂, x₃]) later (timedOut t) := by
  obtain ⟨hfront, hback⟩ : quiet [x₁, x₂] ∧ quiet [x₃] := List.forall_mem_append.mp hquiet
  have hrelease := (h.echoRefused hfront hst hecho).row (u := timedOut t) (hback x₃ (List.mem_singleton_self x₃))
    (congrArg Host.Outcome.next (State.notReady_of_ge hlast)) rfl rfl
  simpa using hrelease

end

/-! ## The attempts below the ceiling -/

theorem peerByte_of_listed {e : Env} {b : Byte} {rest : List Byte} (h : e.bytes = b :: rest) : e.peerByte = b := by
  rw [Env.peerByte, h, List.headD_cons]

/-- Refused attempts below the ceiling, four steps each, lead back to the frame's start. -/
theorem Follows.retries {s t : State} {n k : Nat} {used xs later : List StepInput} {bytes : List Byte}
    (h : Follows s used (xs ++ later) t) (hn : Refusals s n t) (hxs : xs.length = 4 * k) (hquiet : quiet xs)
    (hdelay : ∀ x ∈ xs, s.cfg.tRetry ≤ x.advance) (hst : t.st = .txAssert) (hleft : s.attempts + n + k < 25)
    (hbytes : t.env.bytes = List.replicate k 0xFE ++ bytes) :
    ∃ u, Follows s (used ++ xs) later u ∧ Refusals s (n + k) u ∧ u.st = .txAssert ∧ u.err = t.err ∧
      u.env.bytes = bytes := by
  induction k generalizing n t used xs with
  | zero =>
    obtain rfl := List.length_eq_zero_iff.mp hxs
    rw [List.append_nil]
    exact ⟨t, h, hn, hst, rfl, hbytes⟩
  | succ k ih =>
    match xs with
    | [] | [_] | [_, _] | [_, _, _] => simp only [List.length_cons, List.length_nil] at hxs; omega
    | x₁ :: x₂ :: x₃ :: x₄ :: xs =>
      obtain ⟨hfront, hrest⟩ : quiet [x₁, x₂, x₃, x₄] ∧ quiet xs := List.forall_mem_append.mp hquiet
      obtain ⟨hfrontDelay, hrestDelay⟩ := List.forall_mem_append (l₁ := [x₁, x₂, x₃, x₄]).mp hdelay
      have hretry := h.retry hfront hst (peerByte_of_listed hbytes) (by rw [hn.attempts]; omega)
        (hn.cfg ▸ hfrontDelay x₃ (by simp))
      obtain ⟨u, hu, hrefusals, hust, herr, hubytes⟩ := ih (n := n + 1) hretry { hn.release with }
        (by simp at hxs; omega) hrest hrestDelay rfl (by omega) (congrArg List.tail hbytes)
      refine ⟨u, ?_, ?_, hust, herr, hubytes⟩
      · simpa using hu
      · rwa [Nat.add_right_comm] at hrefusals

/-- Settles O58: the attempts below the ceiling by `Follows.retries`, and the one that meets it by `Follows.timeOut`. -/
theorem attemptCeilingIsExact : Obligations.AttemptCeilingIsExact := by
  intro s k xs later bytes hinv hst hfresh hrst hreq _ _ hbytes hinputs hquiet hdelay
  have hstart : Follows s [] (xs ++ later) s := hinputs ▸ Follows.start hinv hrst hreq
  refine ⟨fun hbelow hlen => ?_, ?_⟩
  · obtain ⟨u, hu, hrefusals, hust, herr, hubytes⟩ :=
      hstart.retries (.start s) hlen hquiet hdelay hst (by omega) hbytes
    rw [Nat.zero_add] at hrefusals
    have hrun : Host.Core.run Sys2Proof.core (4 * k) s = .next (timed s xs later u) := hlen ▸ hu.run
    have hattempts : u.attempts = k := by rw [hrefusals.attempts, hfresh, Nat.zero_add]
    exact ⟨_, hrun, hust, hattempts, hrefusals.txOff, herr, hubytes, hrefusals.trace⟩
  · rintro rfl hlen
    obtain ⟨ys, zs, rfl, hys⟩ : ∃ ys zs, xs = ys ++ zs ∧ ys.length = 4 * 24 :=
      ⟨xs.take 96, xs.drop 96, (List.take_append_drop ..).symm, by simp [hlen]⟩
    have hzs : zs.length = 3 := by
      rw [List.length_append, hys] at hlen
      omega
    obtain ⟨z₁, z₂, z₃, rfl⟩ : ∃ z₁ z₂ z₃, zs = [z₁, z₂, z₃] := by
      match zs, hzs with
      | [z₁, z₂, z₃], _ => exact ⟨z₁, z₂, z₃, rfl⟩
    obtain ⟨hbelow, hlast⟩ : quiet ys ∧ quiet [z₁, z₂, z₃] := List.forall_mem_append.mp hquiet
    obtain ⟨t, ht, hrefusals, htst, -, htbytes⟩ := Follows.retries (k := 24) (bytes := 0xFE :: bytes)
      (List.append_assoc .. ▸ hstart) (.start s) hys hbelow (List.forall_mem_append.mp hdelay).1 hst (by omega) hbytes
    have hend := ht.timeOut hlast htst (peerByte_of_listed htbytes) (by rw [hrefusals.attempts]; omega)
    have hrun : Host.Core.run Sys2Proof.core 99 s = .next (timed s _ later (timedOut t)) := hlen ▸ hend.run
    have hall := hrefusals.release
    exact ⟨_, hrun, rfl, rfl, rfl, hall.txOff, hall.rxLen, hall.trace⟩

end Sys2Proof.Safety
end

section
/-! The reassembly states (R210 to R217, R221, R222): each state's row in the literals of its rule, and what the two
buffers read as behind it. -/

namespace Sys2Proof.Machine

/-- `RX_TYPE` takes the peer's next answer as the byte in the type position (R210). -/
theorem exec_stRxType (s : State) : exec .stRxType s = .next (s.takeByte.takeType s.env.peerByte) := rfl

/-- Settles O24, by the three classes of the byte (R81). -/
theorem rxTypeClassifiesTheByte : Obligations.RxTypeClassifiesTheByte := by
  intro s r t
  refine (exec_stRxType s).trans (congrArg Host.Outcome.next ?_)
  by_cases hresponse : r = 0x20
  · have hread : s.env.peerByte = 0x20 := hresponse
    simp only [t, r, hread, State.takeType_response, if_true]
    rfl
  · rw [if_neg hresponse]
    by_cases hsentinel : r = 0xFE ∨ r = 0xFF
    · rw [if_pos hsentinel]
      exact State.takeType_sentinel hsentinel
    · rw [if_neg hsentinel]
      have hfatal : r ∉ [0x20, 0xFE, 0xFF] := by simpa using ⟨hresponse, not_or.mp hsentinel⟩
      exact State.takeType_unexpected hfatal

/-- Settles O25: each row writes one half of the id and names the other. -/
theorem rxIdStatesStoreLowByteFirst : Obligations.RxIdStatesStoreLowByteFirst :=
  fun _ => ⟨rfl, rfl⟩

/-- Settles O26: the clamped length is R213's, and the row names every register it writes. -/
theorem rxSizeClampsTheLength : Obligations.RxSizeClampsTheLength :=
  fun _ => rfl

/-- Settles O27: the index lies in `f_pay`, and the row writes there. -/
theorem rxPayloadStoresOneByte : Obligations.RxPayloadStoresOneByte :=
  fun s hwf hix => ⟨s.fPay.write s.byteIx s.env.peerByte, execStRxPayload_of_inside hix, Memory.read_write hwf _ _⟩

/-- What the response buffer reads as after the append (R215). -/
theorem State.append_rxbuf_read {s : State} (hwf : s.rxbuf.wf = true) (i : Nat) :
    s.append.rxbuf.read i =
      if s.rxLen ≤ i ∧ i < s.rxLen + s.fLen then s.fPay.read (i - s.rxLen) else s.rxbuf.read i := by
  have hrange : s.rxLen ≤ i ∧ i - s.rxLen < s.fLen ↔ s.rxLen ≤ i ∧ i < s.rxLen + s.fLen := by omega
  rw [State.append, Memory.read_writeRange hwf]
  simp only [Memory.readRange_length, Memory.readRange_getElem, Nat.zero_add, dite_eq_ite, hrange]

/-- Settles O28: a frame of at most 16 bytes lies in `f_pay`, so the overflow test alone decides. -/
theorem rxAppendAppendsOrOverflows : Obligations.RxAppendAppendsOrOverflows := by
  intro s hwf hlen
  have hrow : exec .stRxAppend s = .next s.finishFrame := execStRxAppend_of_inside hlen
  refine ⟨fun hgt => ?_, fun hle => ⟨s.append.rxbuf, ?_, State.append_rxbuf_read hwf⟩⟩
  · rw [hrow, State.finishFrame_of_gt hgt]
  · rw [hrow, State.finishFrame_of_le hle, ← unpackCont_eq_bit]
    rfl

/-- Settles O29: each row is the release and the move to `DONE`, which name what they write. -/
theorem exitsReleaseSelect : Obligations.ExitsReleaseSelect :=
  fun _ => ⟨rfl, rfl⟩

end Sys2Proof.Machine
end

section
/-! The way back to `IDLE` (R218, R270): no row of a state but `IDLE` leads there. -/

namespace Sys2Proof.Machine

/-- A choice between two states, neither of them `IDLE`. -/
theorem ite_ne_idle {x y : St} {c : Prop} [Decidable c] (hx : x ≠ .idle) (hy : y ≠ .idle) :
    (if c then x else y) ≠ .idle := by
  split
  · exact hx
  · exact hy

theorem delayNext_ne_idle (d : Delay) : delayNext d ≠ .idle := by
  cases d <;> exact nofun

theorem State.notReady_ne_idle (s : State) : s.notReady.st ≠ .idle := by
  rw [State.notReady, apply_ite State.st]
  exact ite_ne_idle nofun nofun

theorem State.takeType_ne_idle (s : State) (r : Byte) : (s.takeType r).st ≠ .idle := by
  unfold State.takeType
  cases typeClass r <;> exact nofun

theorem State.finishFrame_ne_idle (s : State) : s.finishFrame.st ≠ .idle := by
  rw [State.finishFrame, apply_ite State.st]
  exact ite_ne_idle nofun (ite_ne_idle nofun nofun)

/-- An entry starts the exchange or ends it (R151). -/
theorem State.enter_ne_idle (s : State) (id : Half) (payload : List Byte) : (s.enter id payload).st ≠ .idle := by
  rw [State.enter, apply_ite State.st]
  exact ite_ne_idle nofun nofun

theorem State.entryStep_ne_idle {s : State} (h : s.st ≠ .idle) : s.entryStep.st ≠ .idle := by
  cases hreq : s.req with
  | execute id payload =>
    rw [State.entryStep_of_execute hreq]
    exact s.enter_ne_idle id payload
  | none | encodeHeader | decodeHeader => rwa [State.entryStep_of_no_execute (by simp [hreq])]

/-- The row of a state other than `IDLE` leads to a state other than `IDLE`. -/
theorem exec_stRow_ne_idle {s : State} (h : s.st ≠ .idle) : Yields (exec (stRow s.st) s) fun u => u.st ≠ .idle := by
  cases hst : s.st with
  | idle => exact absurd hst h
  | done => exact .next (State.entryStep_ne_idle h)
  | txAssert => exact .guarded fun _ => nofun
  | txNrRelease => exact .next s.notReady_ne_idle
  | txNrDelay | txIfDelay | rxSettle | rxTogDelay1 | rxTogDelay2 =>
    exact .next (ite_ne_idle (delayNext_ne_idle _) nofun)
  | txType | txIdhi | txSize | txRelease | rxSize => exact .next (ite_ne_idle nofun nofun)
  | txPayload | rxPayload => exact .guarded fun _ => ite_ne_idle nofun nofun
  | rxPoll =>
    refine .next ?_
    rw [apply_ite State.st]
    exact ite_ne_idle nofun (ite_ne_idle nofun nofun)
  | rxType => exact .next (State.takeType_ne_idle _ _)
  | rxAppend => exact .guarded fun _ => s.finishFrame_ne_idle
  | txIdlo | txFill | rxAssert | rxTogRelease | rxTogAssert | rxIdlo | rxIdhi | rxDoneRelease | failRelease =>
    exact .next nofun

/-- Settles O53: a step without the reset input runs the row of `st`, which leads to `IDLE` from `IDLE` alone. -/
theorem onlyResetReturnsToIdle : Obligations.OnlyResetReturnsToIdle := by
  intro s t hi h hidle
  cases hr : s.rst with
  | true => exact .inl rfl
  | false =>
    refine .inr (Classical.byContradiction fun hst => ?_)
    obtain ⟨u, hu, rfl⟩ := yields_of_step hr hi h (exec_stRow_ne_idle (s := s.begun) hst)
    exact hu hidle

end Sys2Proof.Machine
end

section
/-! The received id reaches nothing but `f_id` (R219): no row of `st` tests it, and a row that writes it writes
nothing else from it. -/

namespace Sys2Proof.Machine

/-- The state with another id in the frame scratch. -/
def withFId (v : Half) (s : State) : State :=
  { s with fId := v }

/-- The entry step clears the id, or leaves it. -/
theorem withFId_entryStep (v : Half) (s : State) : ∃ w, (withFId v s).entryStep = withFId w s.entryStep := by
  cases hreq : s.req with
  | execute id payload =>
    rw [State.entryStep_of_execute hreq, State.entryStep_of_execute (s := withFId v s) hreq]
    exact ⟨(s.enter id payload).fId, rfl⟩
  | none | encodeHeader | decodeHeader =>
    rw [State.entryStep_of_no_execute (s := s) (by simp [hreq]),
      State.entryStep_of_no_execute (s := withFId v s) (by simp [withFId, hreq])]
    exact ⟨v, rfl⟩

/-- Two choices alike but for `f_id`, made alike. -/
theorem ite_withFId {v : Half} {t u t' u' : State} {c : Prop} [Decidable c] (ht : t' = withFId v t)
    (hu : u' = withFId v u) : (if c then t' else u') = withFId v (if c then t else u) := by
  split
  · exact ht
  · exact hu

theorem withFId_takeType (v : Half) (s : State) (r : Byte) :
    (withFId v s).takeByte.takeType r = withFId v (s.takeByte.takeType r) := by
  unfold State.takeType
  cases typeClass r <;> rfl

/-- The reset input clears the id (R270). -/
theorem withFId_applyReset (v : Half) (s : State) : (withFId v s).applyReset = s.applyReset := by
  rw [State.applyReset, State.applyReset]
  rfl

/-- Where the row of state `x` answers `u` from `s`, with `v` as the received id it answers the same but for `f_id`. -/
def IdKept (x : St) (s : State) (v : Half) (u : State) : Prop :=
  ∃ w, exec (stRow x) (withFId v s) = .next (withFId w u)

theorem exec_stRow_withFId (x : St) (s : State) (v : Half) : Yields (exec (stRow x) s) (IdKept x s v) := by
  cases x with
  | idle | done =>
    obtain ⟨w, hw⟩ := withFId_entryStep v s
    exact .next ⟨w, congrArg Host.Outcome.next hw⟩
  | txAssert => exact .guarded fun hin => ⟨s.cmdId, if_pos hin⟩
  | rxIdlo => exact .next ⟨joinId s.env.peerByte (idHi v), rfl⟩
  | rxIdhi => exact .next ⟨joinId (idLo v) s.env.peerByte, rfl⟩
  | rxType => exact .next ⟨v, congrArg Host.Outcome.next (withFId_takeType v s _)⟩
  | txNrRelease | rxPoll => exact .next ⟨v, congrArg Host.Outcome.next (ite_withFId rfl rfl)⟩
  | txPayload | rxPayload => exact .guarded fun hin => ⟨v, if_pos hin⟩
  | rxAppend =>
    exact .guarded fun hin => ⟨v, (if_pos hin).trans (congrArg Host.Outcome.next (ite_withFId rfl rfl))⟩
  | txType | txNrDelay | txIdlo | txIdhi | txSize | txFill | txRelease | txIfDelay | rxSettle | rxAssert
  | rxTogRelease | rxTogDelay1 | rxTogAssert | rxTogDelay2 | rxSize | rxDoneRelease | failRelease =>
    exact .next ⟨v, rfl⟩

/-- Settles O54: the reset input clears `f_id`, whatever it is; else the row of `st` does not test it, and the step
around the row neither reads nor writes it. -/
theorem receivedIdInfluencesNothing : Obligations.ReceivedIdInfluencesNothing := by
  intro s t v hi h
  show ∃ w, step (withFId v s) = .next (withFId w t)
  cases hr : s.rst with
  | true =>
    obtain rfl := Host.Outcome.next.inj ((step_of_rst hr).symm.trans h)
    refine ⟨s.applyReset.nextInputs.fId, (step_of_rst (s := withFId v s) hr).trans ?_⟩
    rw [withFId_applyReset, withFId]
  | false =>
    obtain ⟨u, ⟨w, hw⟩, rfl⟩ := yields_of_step hr hi h (exec_stRow_withFId s.st s.begun v)
    exact ⟨w, (step_of_st (s := withFId v s) hr hi).trans (congrArg finishStep hw)⟩

end Sys2Proof.Machine
end

section
/-! A response of several frames (R186 to R190, R210 to R216, R220): the waits before a frame leave what was received,
a frame adds its payload, and the last frame's continuation flag ends the exchange. -/

namespace Sys2Proof.Machine

/-- A run of bytes appended behind the first `n` reads back behind them. -/
theorem Memory.readRange_append {m : Memory} (h : m.wf = true) (n : Nat) (bs : List Byte) :
    (m.writeRange n bs).readRange 0 (n + bs.length) = m.readRange 0 n ++ bs := by
  refine List.ext_getElem (by simp) fun i hi _ => ?_
  rw [Memory.readRange_length] at hi
  rw [Memory.readRange_getElem, Memory.read_writeRange h, List.getElem_append, Nat.zero_add]
  by_cases hbefore : i < n
  · rw [dif_neg (by omega), dif_pos (by simpa using hbefore), Memory.readRange_getElem, Nat.zero_add]
  · rw [dif_pos ⟨by omega, by omega⟩, dif_neg (by simpa using hbefore)]
    simp

end Sys2Proof.Machine

namespace Sys2Proof.Safety

open Sys2Proof.Machine

/-! ## One row each, under quiet inputs -/

section
variable {s t : State} {x y : StepInput} {used inputs : List StepInput}

/-- A poll inside the window (R186). -/
theorem Follows.poll (h : Follows s used (x :: inputs) t) (hx : x.reset = false ∧ x.req = .none)
    (hst : t.st = .rxPoll) (hwindow : s.now + elapsed used - t.tRx < t.cfg.readTimeout) :
    Follows s (used ++ [x]) inputs (t.sampleReady.goto (if t.env.readyLevel then .rxType else .rxPoll)) :=
  h.row hx (by rw [hst]; exact execStRxPoll_of_open (s := timed s used _ t) (Nat.not_le.mpr hwindow)) rfl rfl

/-- A row that takes the peer's next answer, `take` being what it does with it (R210 to R214). -/
theorem Follows.read {b : Byte} {bytes : List Byte} (take : Byte → State → State)
    (h : Follows s used (x :: inputs) t) (hx : x.reset = false ∧ x.req = .none) (hbytes : t.env.bytes = b :: bytes)
    (hrow : exec (stRow t.st) (timed s used (x :: inputs) t) =
      .next (take t.env.peerByte (timed s used (x :: inputs) t).takeByte))
    (htimed : take b (timed s used (x :: inputs) t).takeByte = timed s used (x :: inputs) (take b t.takeByte))
    (hrst : (take b t.takeByte).rst = t.rst) (hreq : (take b t.takeByte).req = t.req) :
    Follows s (used ++ [x]) inputs (take b t.takeByte) := by
  rw [peerByte_of_listed hbytes, htimed] at hrow
  exact h.row hx hrow hrst hreq

/-- A row that samples the clock, and behind it the delay `d`, over as soon as the clock has advanced (R187 to R190). -/
theorem Follows.delay {u : State} {d : Delay} {stay : St} (h : Follows s used (x :: y :: inputs) t)
    (hx : x.reset = false ∧ x.req = .none) (hy : y.reset = false ∧ y.req = .none)
    (hmark : exec (stRow t.st) (timed s used (x :: y :: inputs) t) =
      .next (timed s used (x :: y :: inputs) { u with tMark := s.now + elapsed used, st := stay }))
    (hsleep : ∀ v, exec (stRow stay) v = .next (v.sleepIn d stay)) (hrst : u.rst = t.rst) (hreq : u.req = t.req)
    (hdelay : delayTicks u.cfg d ≤ x.advance) :
    Follows s (used ++ [x, y]) inputs { u with tMark := s.now + elapsed used, st := delayNext d } := by
  have hmarked := h.row (u := { u with tMark := s.now + elapsed used, st := stay }) hx hmark hrst hreq
  have hpassed : s.now + elapsed (used ++ [x]) - (s.now + elapsed used) ≥ delayTicks u.cfg d := by
    rw [elapsed_append, ← Nat.add_assoc, Nat.add_sub_cancel_left]
    exact hdelay
  have hslept := hmarked.row (u := { u with tMark := s.now + elapsed used, st := delayNext d }) hy
    ((hsleep _).trans (congrArg Host.Outcome.next (State.sleepIn_of_elapsed hpassed stay))) rfl rfl
  rwa [List.append_assoc] at hslept

end

/-! ## A frame -/

/-- The four header bytes of a Response frame taken (R210 to R213). -/
def takeHeader (lo hi size : Byte) (s : State) : State :=
  (((s.takeType Config.tResponse).takeIdLo lo).takeIdHi hi).takeSize size

/-- The frame row takes the header and the payload, then the append is due (R88). -/
theorem readFrame_eq_finishFrame (s : State) (id : Half) (size : Byte) (payload : List Byte) :
    s.readFrame id size payload =
      (payload.foldl (fun v r => v.takePayload r) (takeHeader (idLo id) (idHi id) size s)).finishFrame := rfl

/-- A frame's clamped length is that of its payload (R213). -/
theorem clampLen_sizeBits {n : Nat} (cont : Bool) (unused : BitVec 2) (h : n ≤ 16) :
    clampLen (unpackLen (sizeBits cont unused (BitVec.ofNat 5 n))) = n := by
  rw [unpackLen_sizeBits, BitVec.toNat_ofNat, Nat.mod_eq_of_lt (by omega)]
  exact Nat.min_eq_left h

/-- The whole payload read, the append is due. -/
theorem foldl_takePayload_st {v : State} {payload : List Byte} (hempty : payload = [] → v.st = .rxAppend)
    (hleft : v.byteIx + payload.length = v.fLen) :
    (payload.foldl (fun v r => v.takePayload r) v).st = .rxAppend := by
  rw [foldl_takePayload_eq]
  by_cases h : payload = []
  · exact (if_pos h).trans (hempty h)
  · exact (if_neg h).trans (if_pos hleft)

/-- The append is the same at every clock reading (R215). -/
theorem timed_finishFrame (s : State) (used inputs : List StepInput) (t : State) :
    (timed s used inputs t).finishFrame = timed s used inputs t.finishFrame := by
  rw [State.finishFrame, State.finishFrame, apply_ite (timed s used inputs)]
  rfl

section
variable {s t : State} {used xs inputs later : List StepInput} {z : StepInput}

/-- The header's four bytes, one a step. -/
theorem Follows.header_in {x₁ x₂ x₃ x₄ : StepInput} {lo hi size : Byte} {bytes : List Byte}
    (h : Follows s used (x₁ :: x₂ :: x₃ :: x₄ :: inputs) t) (hquiet : quiet [x₁, x₂, x₃, x₄])
    (hst : t.st = .rxType) (hbytes : t.env.bytes = Config.tResponse :: lo :: hi :: size :: bytes) :
    Follows s (used ++ [x₁, x₂, x₃, x₄]) inputs
      (takeHeader lo hi size { t with env := afterAnswers 4 t.env }) := by
  simp only [quiet, List.forall_mem_cons] at hquiet
  obtain ⟨h₁, h₂, h₃, h₄, -⟩ := hquiet
  have htype := h.read State.takeType h₁ hbytes (by rw [hst]; rfl) rfl rfl rfl
  have hlo := htype.read State.takeIdLo h₂ (congrArg List.tail hbytes) rfl rfl rfl rfl
  have hhi := hlo.read State.takeIdHi h₃ (congrArg (List.tail ∘ List.tail) hbytes) rfl rfl rfl rfl
  have hsize := hhi.read State.takeSize h₄ (congrArg (List.tail ∘ List.tail ∘ List.tail) hbytes) rfl rfl rfl rfl
  rw [List.append_cons, List.append_cons _ x₂, List.append_cons _ x₃]
  exact hsize

/-- The payload bytes still missing, one a step (R214). -/
theorem Follows.payload_in {payload bytes : List Byte} (h : Follows s used (xs ++ later) t) (hquiet : quiet xs)
    (hxs : xs.length = payload.length) (hst : payload ≠ [] → t.st = .rxPayload)
    (hleft : t.byteIx + payload.length = t.fLen) (hbytes : t.env.bytes = payload ++ bytes) :
    Follows s (used ++ xs) later
      (payload.foldl (fun v r => v.takePayload r) { t with env := afterAnswers payload.length t.env }) := by
  induction payload generalizing used xs t with
  | nil =>
    obtain rfl := List.length_eq_zero_iff.mp hxs
    rw [List.append_nil]
    exact h
  | cons r rest ih =>
    match xs, hxs with
    | x :: xs, hxs =>
      obtain ⟨hx, hrest⟩ := List.forall_mem_cons.mp hquiet
      have hst := hst (List.cons_ne_nil r rest)
      have hlen : t.byteIx + 1 + rest.length = t.fLen := by
        rw [← hleft, List.length_cons]
        omega
      have hmore (hne : rest ≠ []) : t.byteIx + 1 ≠ t.fLen := by
        have := List.length_pos_iff.mpr hne
        omega
      have hread := h.read State.takePayload hx hbytes
        (by rw [hst]; exact execStRxPayload_of_inside (h.inv.received_byte_inside hst)) rfl rfl rfl
      rw [List.append_cons]
      exact ih hread hrest (Nat.succ.inj hxs) (fun hne => if_neg (hmore hne)) hlen (congrArg List.tail hbytes)

/-- The append or the overflow (R215, R222). -/
theorem Follows.finishFrame (h : Follows s used (z :: later) t) (hz : z.reset = false ∧ z.req = .none)
    (hst : t.st = .rxAppend) : Follows s (used ++ [z]) later t.finishFrame := by
  have hrow : exec .stRxAppend (timed s used (z :: later) t) = .next (timed s used (z :: later) t.finishFrame) := by
    rw [← timed_finishFrame]
    exact execStRxAppend_of_inside h.inv.fLen_le
  refine h.row hz (by rw [hst]; exact hrow) ?_ ?_
  · rw [State.finishFrame, apply_ite State.rst]
    exact ite_self _
  · rw [State.finishFrame, apply_ite State.req]
    exact ite_self _

/-- The receive states, one step each, do what the Response frame row does in one (R88, R210 to R215). -/
theorem Follows.readFrame {id : Half} {cont : Bool} {unused : BitVec 2} {payload bytes : List Byte}
    (h : Follows s used (xs ++ z :: later) t) (hquiet : quiet (xs ++ [z])) (hxs : xs.length = payload.length + 4)
    (hst : t.st = .rxType) (hlen : payload.length ≤ 16)
    (hbytes : t.env.bytes =
      responseBytes id (sizeBits cont unused (BitVec.ofNat 5 payload.length)) payload ++ bytes) :
    Follows s (used ++ xs ++ [z]) later
      ({ t with env := afterAnswers (payload.length + 4) t.env }.readFrame id
        (sizeBits cont unused (BitVec.ofNat 5 payload.length)) payload) := by
  have hclamp := clampLen_sizeBits cont unused hlen
  match xs with
  | [] | [_] | [_, _] | [_, _, _] => simp at hxs
  | x₁ :: x₂ :: x₃ :: x₄ :: rest =>
    obtain ⟨hquiet, hz⟩ := List.forall_mem_append.mp hquiet
    obtain ⟨hfront, hrest⟩ : quiet [x₁, x₂, x₃, x₄] ∧ quiet rest := List.forall_mem_append.mp hquiet
    have hheader := h.header_in hfront hst hbytes
    have hafter := (answers_of_listed [_, _, _, _] (payload ++ bytes) t.env hbytes).2
    have hpayload := hheader.payload_in hrest (by simpa using hxs)
      (fun hne => if_neg (by rw [hclamp]; exact mt List.length_eq_zero_iff.mp hne))
      ((Nat.zero_add _).trans hclamp.symm) hafter
    rw [readFrame_eq_finishFrame]
    rw [List.append_assoc] at hpayload
    refine hpayload.finishFrame (hz z (List.mem_singleton_self z)) (foldl_takePayload_st (fun hempty => ?_) ?_)
    · exact if_pos (by rw [hclamp, hempty]; rfl)
    · exact (Nat.zero_add _).trans hclamp.symm

end

/-! ## What has been received -/

/-- What an exchange has come to in `t`: with `st` at `x`, the payload bytes received so far stand in the response
buffer, and `bytes` and `levels` are what the environment still lists. -/
structure Heard (s : State) (x : St) (received bytes : List Byte) (levels : List Bool) (t : State) : Prop where
  st : t.st = x
  tRx : t.tRx = s.tRx
  cfg : t.cfg = s.cfg
  rxLen : t.rxLen = received.length
  rxbuf : t.rxbuf.readRange 0 received.length = received
  bytes : t.env.bytes = bytes
  levels : t.env.levels = levels

/-- The inputs `xs` behind those `used` bring nothing, keep inside the read window, and where a sentinel is among the
waits each is past both delays of the toggle. -/
structure Prompt (s : State) (before : List Wait) (used xs : List StepInput) : Prop where
  quiet : quiet xs
  window : s.now + elapsed (used ++ xs) - s.tRx < s.cfg.readTimeout
  toggles : ∀ w ∈ before, w ≠ .notReady → ∀ x ∈ xs, s.cfg.tRxtogShort ≤ x.advance ∧ s.cfg.tRxtogMand ≤ x.advance

section
variable {s t : State} {before : List Wait} {used xs later : List StepInput}

theorem Prompt.of_subset {fewer : List Wait} (h : Prompt s before used xs) (hsub : fewer ⊆ before) :
    Prompt s fewer used xs :=
  { h with toggles := fun w hw => h.toggles w (hsub hw) }

theorem Prompt.left {ys zs : List StepInput} (h : Prompt s before used (ys ++ zs)) : Prompt s before used ys where
  quiet := (List.forall_mem_append.mp h.quiet).1
  window := by
    have := h.window
    rw [elapsed_append, elapsed_append ys] at this
    rw [elapsed_append]
    omega
  toggles := fun w hw hs => (List.forall_mem_append.mp (h.toggles w hw hs)).1

theorem Prompt.right {ys zs : List StepInput} (h : Prompt s before used (ys ++ zs)) :
    Prompt s before (used ++ ys) zs where
  quiet := (List.forall_mem_append.mp h.quiet).2
  window := by
    rw [List.append_assoc]
    exact h.window
  toggles := fun w hw hs => (List.forall_mem_append.mp (h.toggles w hw hs)).2

/-- Inputs for two parts of a run, cut between them. -/
theorem Prompt.cut {m n : Nat} (h : Prompt s before used xs) (hlen : xs.length = m + n) :
    ∃ ys zs, xs = ys ++ zs ∧ ys.length = m ∧ zs.length = n ∧
      Prompt s before used ys ∧ Prompt s before (used ++ ys) zs := by
  have hxs := List.take_append_drop m xs
  rw [← hxs] at h
  exact ⟨xs.take m, xs.drop m, hxs.symm, by simp [hlen], by simp [hlen], h.left, h.right⟩

/-! ## The poll and the waits -/

variable {received bytes : List Byte} {levels : List Bool}

/-- Inside the window one sample of the line decides (R186). -/
theorem Follows.sample {x : StepInput} {level : Bool} (h : Follows s used (x :: later) t)
    (hheard : Heard s .rxPoll received bytes (level :: levels) t) (hprompt : Prompt s before used [x]) :
    ∃ u, Follows s (used ++ [x]) later u ∧ Heard s (if level then .rxType else .rxPoll) received bytes levels u := by
  have hlevel : t.env.readyLevel = level := by rw [Env.readyLevel, hheard.levels, List.headD_cons]
  have hwindow : s.now + elapsed used - t.tRx < t.cfg.readTimeout := by
    have := hprompt.window
    rw [elapsed_append] at this
    rw [hheard.tRx, hheard.cfg]
    omega
  have hx := hprompt.quiet x (List.mem_singleton_self x)
  refine ⟨_, h.poll hx hheard.st hwindow, ?_⟩
  rw [hlevel]
  exact { hheard with st := rfl, levels := congrArg List.tail hheard.levels }

/-- A sentinel in the type position and the toggle, each delay left at once (R187 to R190, R210). -/
theorem Follows.toggle {x₁ x₂ x₃ x₄ x₅ : StepInput} {r : Byte}
    (h : Follows s used (x₁ :: x₂ :: x₃ :: x₄ :: x₅ :: later) t) (hr : r = 0xFE ∨ r = 0xFF)
    (hheard : Heard s .rxType received (r :: bytes) levels t) (hquiet : quiet [x₁, x₂, x₃, x₄, x₅])
    (hshort : s.cfg.tRxtogShort ≤ x₂.advance) (hmand : s.cfg.tRxtogMand ≤ x₄.advance) :
    ∃ u, Follows s (used ++ [x₁, x₂, x₃, x₄, x₅]) later u ∧ Heard s .rxPoll received bytes levels u := by
  simp only [quiet, List.forall_mem_cons] at hquiet
  obtain ⟨h₁, h₂, h₃, h₄, h₅, -⟩ := hquiet
  have htype := h.read State.takeType h₁ hheard.bytes (by rw [hheard.st]; rfl)
    (by rw [State.takeType_sentinel hr, State.takeType_sentinel hr]; rfl)
    (by rw [State.takeType_sentinel hr]; rfl) (by rw [State.takeType_sentinel hr]; rfl)
  rw [State.takeType_sentinel hr] at htype
  rw [← hheard.cfg] at hshort hmand
  have hoff := htype.delay (u := State.releaseSelect _) (d := .rxtogShort) h₂ h₃ rfl (fun _ => rfl) rfl rfl hshort
  have hon := hoff.delay (u := State.assertSelect _) (d := .rxtogMand) h₄ h₅ rfl (fun _ => rfl) rfl rfl hmand
  refine ⟨_, by simpa using hon, ?_⟩
  exact { hheard with st := rfl, bytes := congrArg List.tail hheard.bytes }

/-- A sentinel on an asserted line: the poll, then the toggle (R186, R187). -/
theorem Follows.sentinel {r : Byte} (h : Follows s used (xs ++ later) t) (hr : r = 0xFE ∨ r = 0xFF)
    (hheard : Heard s .rxPoll received (r :: bytes) (true :: levels) t) (hprompt : Prompt s before used xs)
    (hlen : xs.length = 6) (hdelays : ∀ x ∈ xs, s.cfg.tRxtogShort ≤ x.advance ∧ s.cfg.tRxtogMand ≤ x.advance) :
    ∃ u, Follows s (used ++ xs) later u ∧ Heard s .rxPoll received bytes levels u := by
  match xs, hlen with
  | [x, x₁, x₂, x₃, x₄, x₅], _ =>
    obtain ⟨u, hu, hasserted⟩ := h.sample hheard (Prompt.left (ys := [x]) hprompt)
    obtain ⟨v, hv, hpolling⟩ := hu.toggle hr hasserted (Prompt.right (ys := [x]) hprompt).quiet
      (hdelays x₂ (by simp)).1 (hdelays x₄ (by simp)).2
    exact ⟨v, by simpa using hv, hpolling⟩

/-- A wait leaves the exchange polling, with what was received (R186, R187, R220). -/
theorem Follows.wait {w : Wait} (h : Follows s used (xs ++ later) t)
    (hheard : Heard s .rxPoll received (w.bytes ++ bytes) (w.level :: levels) t) (hprompt : Prompt s [w] used xs)
    (hlen : xs.length = w.steps) :
    ∃ u, Follows s (used ++ xs) later u ∧ Heard s .rxPoll received bytes levels u := by
  have hdelays := hprompt.toggles w (List.mem_singleton_self w)
  cases w with
  | notReady =>
    obtain ⟨x, rfl⟩ := List.length_eq_one_iff.mp hlen
    exact h.sample hheard hprompt
  | deviceNotReady => exact h.sentinel (.inl rfl) hheard hprompt hlen (hdelays nofun)
  | readOverflow => exact h.sentinel (.inr rfl) hheard hprompt hlen (hdelays nofun)

/-- So do any number of waits. -/
theorem Follows.waits {ws : List Wait} (h : Follows s used (xs ++ later) t)
    (hheard : Heard s .rxPoll received (ws.flatMap Wait.bytes ++ bytes) (ws.map Wait.level ++ levels) t)
    (hprompt : Prompt s ws used xs) (hlen : xs.length = (ws.map Wait.steps).sum) :
    ∃ u, Follows s (used ++ xs) later u ∧ Heard s .rxPoll received bytes levels u := by
  induction ws generalizing used xs t with
  | nil =>
    obtain rfl := List.length_eq_zero_iff.mp hlen
    rw [List.append_nil]
    exact ⟨t, h, hheard⟩
  | cons w ws ih =>
    rw [List.map_cons, List.sum_cons] at hlen
    obtain ⟨ys, zs, rfl, hys, hzs, hfirst, hrest⟩ := hprompt.cut hlen
    rw [List.append_assoc] at h
    rw [List.flatMap_cons, List.append_assoc] at hheard
    obtain ⟨u, hu, hwaited⟩ := h.wait hheard (hfirst.of_subset (by simp)) hys
    obtain ⟨v, hv, hpolling⟩ := ih hu hwaited (hrest.of_subset (by simp)) hzs
    exact ⟨v, by rwa [← List.append_assoc], hpolling⟩

/-! ## Frames -/

/-- The peer's listed answers taken, nothing else has changed. -/
theorem Heard.afterAnswers {x : St} {listed : List Byte} (h : Heard s x received (listed ++ bytes) levels t) :
    Heard s x received bytes levels { t with env := afterAnswers listed.length t.env } :=
  { h with
    bytes := (answers_of_listed listed bytes t.env h.bytes).2
    levels := (afterAnswers_levels ..).trans h.levels }

/-- A frame that fits adds its payload to what was received, and its continuation flag decides (R215). -/
theorem Heard.readFrame {x : St} {id : Half} {cont : Bool} {unused : BitVec 2} {payload : List Byte}
    (h : Heard s x received bytes levels t) (hpay : t.fPay.wf = true) (hrx : t.rxbuf.wf = true)
    (hlen : payload.length ≤ 16) (hfits : received.length + payload.length ≤ s.cfg.rxCap) :
    Heard s (if cont then .rxPoll else .rxDoneRelease) (received ++ payload) bytes levels
      (t.readFrame id (sizeBits cont unused (BitVec.ofNat 5 payload.length)) payload) := by
  have hmin : payload.length = min (BitVec.ofNat 5 payload.length).toNat 16 := by
    rw [BitVec.toNat_ofNat, Nat.mod_eq_of_lt (by omega), Nat.min_eq_left hlen]
  have hroom : t.rxLen + payload.length ≤ t.cfg.rxCap := by rwa [h.rxLen, h.cfg]
  have hread := Memory.readRange_append hrx received.length payload
  rw [h.rxbuf, ← h.rxLen] at hread
  rw [readFrame_eq t id cont unused hmin, State.finishFrame_of_le (s := frameRead _ _ _ t) hroom,
    append_frameRead hpay, unpackCont_sizeBits]
  refine { h with st := rfl, rxLen := ?_, rxbuf := ?_ } <;> rw [List.length_append, ← h.rxLen]
  exact hread

/-- A frame and the waits before it (R220). -/
theorem Follows.piece {p : Piece} {cont : Bool} (h : Follows s used (xs ++ later) t)
    (hheard : Heard s .rxPoll received (p.bytes cont ++ bytes) (p.before.map Wait.level ++ true :: levels) t)
    (hprompt : Prompt s p.before used xs) (hxs : xs.length = pieceSteps p) (hlen : p.payload.length ≤ 16)
    (hfits : received.length + p.payload.length ≤ s.cfg.rxCap) :
    ∃ u, Follows s (used ++ xs) later u ∧
      Heard s (if cont then .rxPoll else .rxDoneRelease) (received ++ p.payload) bytes levels u := by
  have hparts : pieceSteps p = (p.before.map Wait.steps).sum + (1 + (p.payload.length + 4 + 1)) := by
    rw [pieceSteps]
    omega
  obtain ⟨ws, ys, rfl, hws, hys, hbefore, hprompt⟩ := hprompt.cut (hxs.trans hparts)
  obtain ⟨x, zs, rfl, hx, hzs, hpoll, hframe⟩ := hprompt.cut hys
  obtain ⟨fs, z, rfl, hfs, hz, -, -⟩ := hframe.cut hzs
  obtain ⟨x, rfl⟩ := List.length_eq_one_iff.mp hx
  obtain ⟨z, rfl⟩ := List.length_eq_one_iff.mp hz
  rw [Piece.bytes, List.append_assoc] at hheard
  simp only [List.append_assoc] at h
  obtain ⟨u, hu, hpolling⟩ := h.waits hheard hbefore hws
  obtain ⟨v, hv, hasserted⟩ := hu.sample hpolling hpoll
  have hread := hv.readFrame hframe.quiet hfs hasserted.st hlen hasserted.bytes
  refine ⟨_, by simpa using hread, ?_⟩
  exact hasserted.afterAnswers.readFrame hv.inv.fPay_wf hv.inv.rxbuf_wf hlen hfits

theorem messageBytes_cons (p q : Piece) (ps : List Piece) :
    messageBytes (p :: q :: ps) = p.bytes true ++ messageBytes (q :: ps) := rfl

/-- The frames of a response, continued but the last (R220). -/
theorem Follows.message {ps : List Piece} (h : Follows s used (xs ++ later) t)
    (hheard : Heard s .rxPoll received (messageBytes ps ++ bytes) (messageLevels ps ++ levels) t) (hne : ps ≠ [])
    (hprompt : Prompt s (ps.flatMap Piece.before) used xs) (hxs : xs.length = (ps.map pieceSteps).sum)
    (hlen : ∀ p ∈ ps, p.payload.length ≤ 16)
    (hfits : received.length + (messagePayload ps).length ≤ s.cfg.rxCap) :
    ∃ u, Follows s (used ++ xs) later u ∧
      Heard s .rxDoneRelease (received ++ messagePayload ps) bytes levels u := by
  induction ps generalizing used xs t received with
  | nil => exact absurd rfl hne
  | cons p ps ih =>
    obtain ⟨hp, hps⟩ := List.forall_mem_cons.mp hlen
    have hpayload : messagePayload (p :: ps) = p.payload ++ messagePayload ps := List.flatMap_cons
    have hlevels : messageLevels (p :: ps) ++ levels =
        p.before.map Wait.level ++ true :: (messageLevels ps ++ levels) := by
      simp [messageLevels]
    rw [hpayload, List.length_append, ← Nat.add_assoc] at hfits
    rw [hlevels] at hheard
    rw [hpayload, ← List.append_assoc]
    rw [List.map_cons, List.sum_cons] at hxs
    obtain ⟨ys, zs, rfl, hys, hzs, hfirst, hrest⟩ := hprompt.cut hxs
    rw [List.append_assoc] at h
    have hpiece {cont : Bool} {after : List Byte} (hbytes : messageBytes (p :: ps) ++ bytes = p.bytes cont ++ after) :=
      h.piece (cont := cont) (hbytes ▸ hheard) (hfirst.of_subset (by simp)) hys hp (by omega)
    cases ps with
    | nil =>
      obtain rfl := List.length_eq_zero_iff.mp hzs
      obtain ⟨u, hu, hdone⟩ := hpiece (cont := false) rfl
      refine ⟨u, by simpa using hu, ?_⟩
      simpa [messagePayload, messageLevels] using hdone
    | cons q ps =>
      obtain ⟨u, hu, hpolling⟩ := hpiece (cont := true) (by rw [messageBytes_cons, List.append_assoc])
      obtain ⟨v, hv, hdone⟩ := ih hu hpolling (List.cons_ne_nil q ps) (hrest.of_subset (by simp)) hzs hps
        (by rwa [List.length_append])
      exact ⟨v, by rwa [← List.append_assoc], hdone⟩

end

/-- Settles O59: the frames and their waits lead to `RX_DONE_RELEASE` with the concatenation received, and the release
delivers it. -/
theorem responseIsTheConcatenationOfPayloads : Obligations.ResponseIsTheConcatenationOfPayloads := by
  intro s ps xs later bytes levels hinv hst hrx hrst hreq hne hlen hfits hbytes hlevels hinputs hxs hquiet hwindow
    htoggles
  have hstart : Follows s [] (xs ++ later) s := hinputs ▸ Follows.start hinv hrst hreq
  have hheard : Heard s .rxPoll [] (messageBytes ps ++ bytes) (messageLevels ps ++ levels) s :=
    ⟨hst, rfl, rfl, hrx, rfl, hbytes, hlevels⟩
  have hprompt : Prompt s (ps.flatMap Piece.before) [] xs := by
    refine ⟨hquiet, hwindow, fun w hw => ?_⟩
    obtain ⟨p, hp, hw⟩ := List.mem_flatMap.mp hw
    exact htoggles p hp w hw
  obtain ⟨ys, z, rfl, hys, hz, hmessage, hlast⟩ := hprompt.cut hxs
  obtain ⟨z, rfl⟩ := List.length_eq_one_iff.mp hz
  rw [List.append_assoc] at hstart
  obtain ⟨t, ht, hdone⟩ := hstart.message hheard hne hmessage hys hlen (by simpa using hfits)
  have herr : t.err = .ok := (ht.inv.receives (x := .rxDoneRelease) hdone.st nofun nofun nofun rfl).1
  have hend := ht.row (u := t.releaseSelect.goto .done) (hlast.quiet z (List.mem_singleton_self z))
    (by rw [hdone.st]; rfl) rfl rfl
  have hresponse : t.rxbuf.readRange 0 t.rxLen = messagePayload ps := by
    rw [hdone.rxLen]
    exact hdone.rxbuf
  have hrun : Host.Core.run Sys2Proof.core ((ps.map pieceSteps).sum + 1) s =
      .next (timed s (ys ++ [z]) later (t.releaseSelect.goto .done)) := hxs ▸ hend.run
  exact ⟨_, hrun, rfl, herr, (if_pos ⟨rfl, herr⟩).trans (congrArg some hresponse), hdone.rxLen, hdone.bytes,
    hdone.levels⟩

end Sys2Proof.Safety
end

section
/-! Where an error is taken (R240 to R245, R249): each row of `st` keeps `err`, clears it, or takes the one error it
detects, by the exit of that error. -/

namespace Sys2Proof.Machine

/-- What the row of state `x` may do to `err` from `s` to `t`: an error comes with the test that detects it and with the
exit `fail` gives it (R249). -/
inductive ErrMove (x : St) (s t : State) : Prop
  | kept (herr : t.err = s.err)
  | cleared (herr : t.err = .ok)
  | packetTooLarge (hx : x = .idle ∨ x = .done) (herr : t.err = .packetTooLarge) (hexit : t.st = .done)
  | writeTimeout (hx : x = .txNrRelease) (hlast : s.attempts ≥ 25) (herr : t.err = .writeTimeout)
      (hexit : t.st = .done)
  | readTimeout (hx : x = .rxPoll) (hwindow : s.now - s.tRx ≥ s.cfg.readTimeout) (herr : t.err = .readTimeout)
      (hexit : t.st = .failRelease)
  | unexpectedMessageType (hx : x = .rxType) (htype : t.fType ∉ [0x20, 0xFE, 0xFF])
      (herr : t.err = .unexpectedMessageType) (hexit : t.st = .failRelease)
  | responseBufferOverflow (hx : x = .rxAppend) (hgt : s.rxLen + s.fLen > s.cfg.rxCap)
      (herr : t.err = .responseBufferOverflow) (hexit : t.st = .failRelease)

/-- The entry step clears `err` before it checks the size (R151, R241). -/
theorem ErrMove.entryStep {x : St} (s : State) (hx : x = .idle ∨ x = .done) : ErrMove x s s.entryStep := by
  cases hreq : s.req with
  | execute id payload =>
    rw [State.entryStep_of_execute hreq]
    by_cases hfit : payload.length ≤ s.cfg.txCap
    · rw [State.enter_of_le hfit]
      exact .cleared rfl
    · rw [State.enter_of_gt (Nat.lt_of_not_le hfit)]
      exact .packetTooLarge hx rfl rfl
  | none | encodeHeader | decodeHeader =>
    rw [State.entryStep_of_no_execute (by simp [hreq])]
    exact .kept rfl

/-- Only the last attempt refused is an error (R180, R242). -/
theorem ErrMove.notReady (s : State) : ErrMove .txNrRelease s s.notReady := by
  by_cases hlast : 25 ≤ s.attempts
  · rw [State.notReady_of_ge hlast]
    exact .writeTimeout rfl hlast rfl rfl
  · rw [State.notReady_of_lt (Nat.lt_of_not_le hlast)]
    exact .kept rfl

/-- Only an elapsed window is an error (R186, R243). -/
theorem ErrMove.poll (s : State) : Yields (execStRxPoll s) (ErrMove .rxPoll s) := by
  by_cases hwindow : s.now - s.tRx ≥ s.cfg.readTimeout
  · rw [execStRxPoll_of_elapsed hwindow]
    exact .next (.readTimeout rfl hwindow rfl rfl)
  · rw [execStRxPoll_of_open hwindow]
    exact .next (.kept rfl)

/-- Of the three classes of the byte only the unexpected one is an error (R210, R244). -/
theorem ErrMove.takeType (s : State) (r : Byte) : ErrMove .rxType s (s.takeByte.takeType r) := by
  cases hclass : typeClass r with
  | response =>
    rw [typeClass_eq_response.mp hclass, State.takeType_response]
    exact .kept rfl
  | sentinel =>
    rw [State.takeType_sentinel (typeClass_eq_sentinel.mp hclass)]
    exact .kept rfl
  | unexpected =>
    have hfatal := typeClass_eq_unexpected.mp hclass
    rw [State.takeType_unexpected hfatal]
    exact .unexpectedMessageType rfl hfatal rfl rfl

/-- Only a frame that does not fit is an error (R215, R245). -/
theorem ErrMove.finishFrame (s : State) : ErrMove .rxAppend s s.finishFrame := by
  by_cases hfit : s.rxLen + s.fLen ≤ s.cfg.rxCap
  · rw [State.finishFrame_of_le hfit]
    exact .kept rfl
  · have hgt := Nat.lt_of_not_le hfit
    rw [State.finishFrame_of_gt hgt]
    exact .responseBufferOverflow rfl hgt rfl rfl

/-- Six rows can move `err`; every other row keeps it. -/
theorem exec_stRow_errMove (x : St) (s : State) : Yields (exec (stRow x) s) (ErrMove x s) := by
  cases x with
  | idle => exact .next (.entryStep s (.inl rfl))
  | done => exact .next (.entryStep s (.inr rfl))
  | txNrRelease => exact .next (.notReady s)
  | rxPoll => exact .poll s
  | rxType => exact .next (.takeType s _)
  | rxAppend => exact .guarded fun _ => .finishFrame s
  | txAssert | txPayload | rxPayload => exact .guarded fun _ => .kept rfl
  | txType | txNrDelay | txIdlo | txIdhi | txSize | txFill | txRelease | txIfDelay | rxSettle | rxAssert
  | rxTogRelease | rxTogDelay1 | rxTogAssert | rxTogDelay2 | rxIdlo | rxIdhi | rxSize | rxDoneRelease
  | failRelease =>
    exact .next (.kept rfl)

/-- Settles O52: what a step does around the row of `st` reads and writes nothing the row's `err` comes from, and a row
that neither keeps nor clears `err` detects the error it takes. -/
theorem errorsArriveOnlyWhereDetected : Obligations.ErrorsArriveOnlyWhereDetected := by
  intro s t hr hi h hchanged herror
  obtain ⟨u, hu, rfl⟩ := yields_of_step hr hi h (exec_stRow_errMove s.st s.begun)
  cases hu with
  | kept herr => exact absurd herr hchanged
  | cleared herr => exact absurd herr herror
  | packetTooLarge hx herr hexit => exact .inl ⟨herr, hx, hexit⟩
  | writeTimeout hx hlast herr hexit => exact .inr (.inl ⟨herr, hx, hlast, hexit⟩)
  | readTimeout hx hwindow herr hexit => exact .inr (.inr (.inl ⟨herr, hx, hwindow, hexit⟩))
  | unexpectedMessageType hx htype herr hexit => exact .inr (.inr (.inr (.inl ⟨herr, hx, htype, hexit⟩)))
  | responseBufferOverflow hx hgt herr hexit => exact .inr (.inr (.inr (.inr ⟨herr, hx, hgt, hexit⟩)))

end Sys2Proof.Machine
end

section
/-! The reset input (R270). -/

namespace Sys2Proof.Machine

/-- Settles O44: a step under the reset input is `applyReset`, which gives each register R39's value and performs no
event, followed by the next step's inputs, which write no register. -/
theorem resetInputTakesEveryRegister : Obligations.ResetInputTakesEveryRegister := by
  intro s hr
  refine ⟨s.applyReset.nextInputs, step_of_rst hr, ?_⟩
  simp

end Sys2Proof.Machine
end
